-- ==== Sys2Proof/Word.lean ====
section
/-! DEFINITION. The fixed widths of the block: 32-bit words and addresses, the 56-bit tick count, 8-bit packet tags
(00_scope.md R7: "The widths the source fixes are not parameters"). An instant is a natural
number of time units (R11), so it has no type of its own. -/

namespace Sys2Proof

/-- A word is 32 bits (00_scope.md R12); register data and MMIO addresses are words (R7, R22). -/
abbrev Word := BitVec 32

/-- The tick counter's width (10_state.md R36). -/
abbrev Ticks := BitVec 56

end Sys2Proof
end

