-- ==== Sys2Proof/Config.lean ====
section
/-! DEFINITION. The configuration CFG the block is built with (00_scope.md R7), the reference configuration REFCFG
(10_state.md R24), and the one free value of the model: the monitor's instant inside its window. -/

namespace Sys2Proof

/-- The four register semantics a window can have (10_state.md R23). -/
inductive EngineKind where
  | clkGen
  | timer
  | intrShell
  | regBlock
deriving DecidableEq, Repr

/-- An engine descriptor (name, kind, base, size) (10_state.md R23). -/
structure Engine where
  name : String
  kind : EngineKind
  base : Nat
  size : Nat
deriving DecidableEq, Repr

/-- Window membership by range containment on unbounded naturals (20_memory.md R68, 40_dispatcher.md R121). -/
def Engine.contains (e : Engine) (addr : Nat) : Bool :=
  decide (e.base ≤ addr) && decide (addr < e.base + e.size)

/-- The configuration value CFG, one field per row of the table of 00_scope.md R7. -/
structure Cfg where
  fRef : Nat
  tu : Nat
  engines : List Engine
  clkCoreOff : Nat
  clkMemOff : Nat
  clkVidOff : Nat
  tmrIntrOff : Nat
  tmrIntrEnOff : Nat
  tmrMulOff : Nat
  tmrDivOff : Nat
  tmrTimeLoOff : Nat
  tmrTimeHiOff : Nat
  tmrAlarmOff : Nat
  shellIntrOff : Nat
  shellIntrEnOff : Nat
  tmrAlarmBit : Nat
  alarmLatency : Nat
deriving DecidableEq, Repr

/-- The three coefficient-word offsets of the CLKGEN window (00_scope.md R7). -/
def Cfg.clkOffs (c : Cfg) : List Nat := [c.clkCoreOff, c.clkMemOff, c.clkVidOff]

/-- The seven register offsets of the TIMER window (00_scope.md R7). -/
def Cfg.tmrOffs (c : Cfg) : List Nat :=
  [c.tmrIntrOff, c.tmrIntrEnOff, c.tmrMulOff, c.tmrDivOff, c.tmrTimeLoOff, c.tmrTimeHiOff, c.tmrAlarmOff]

/-- The two register offsets of every INTR_SHELL window (00_scope.md R7). -/
def Cfg.shellOffs (c : Cfg) : List Nat := [c.shellIntrOff, c.shellIntrEnOff]

/-- The offset parameters that belong to an engine kind (00_scope.md R7, R8 item (e)). -/
def Cfg.offsOf (c : Cfg) : EngineKind → List Nat
  | .clkGen => c.clkOffs
  | .timer => c.tmrOffs
  | .intrShell => c.shellOffs
  | .regBlock => []

/-- The first engine of a kind; the only one for `clkGen` and `timer` (00_scope.md R8 item (d)). -/
def Cfg.firstOf (c : Cfg) (k : EngineKind) : Option Engine :=
  c.engines.find? fun e => e.kind == k

/-- The engine at a position of ENGINES. Engines are named by position, one-to-one with their names because names are
pairwise distinct (00_scope.md R8 item (g); DESIGN CHOICE, log 1). -/
def Cfg.engineAt (c : Cfg) (e : Nat) : Option Engine := c.engines[e]?

/-- The reference configuration REFCFG (10_state.md R24; its windows, offsets and alarm bit are PRESUMED, log 12). -/
def refCfg : Cfg where
  fRef := 16666667
  tu := 1000000000
  engines :=
    [ { name := "FIFO", kind := .intrShell, base := 0x002000, size := 0x2000 },
      { name := "TIMER", kind := .timer, base := 0x009000, size := 0x1000 },
      { name := "STRAPS", kind := .regBlock, base := 0x101000, size := 0x1000 },
      { name := "CLKGEN", kind := .clkGen, base := 0x680000, size := 0x1000 } ]
  clkCoreOff := 0x500
  clkMemOff := 0x504
  clkVidOff := 0x508
  tmrIntrOff := 0x100
  tmrIntrEnOff := 0x140
  tmrMulOff := 0x200
  tmrDivOff := 0x210
  tmrTimeLoOff := 0x400
  tmrTimeHiOff := 0x410
  tmrAlarmOff := 0x420
  shellIntrOff := 0x100
  shellIntrEnOff := 0x140
  tmrAlarmBit := 0
  alarmLatency := 1000000

/-- FREE VALUE (DESIGN CHOICE, log 8). How long after the earliest instant the alarm monitor takes its n-th own step;
the step reduces it to the monitor's window (42_timer.md R201, 93_implementation_defined.md U3, U4: "any value").
Nothing constrains it. -/
opaque Config.monitorLag : Nat → Nat

end Sys2Proof
end

