-- ==== Sys2Proof/Syntax.lean ====
section
/-! DEFINITION. The operations (30_encoding.md R92): one constructor per row of spec/opcode_table.json, with the operands
left after decode; and the transaction record an operation is decoded from (R90, R91). -/

namespace Sys2Proof

/-- An operation of the block. `off` is the byte offset inside the window, `e` an engine by its position in ENGINES,
`d` the written word (30_encoding.md R92, R93). -/
inductive Instr where
  /-- `RD_UNMAPPED` (40_dispatcher.md R124). -/
  | rdUnmapped (addr : Word)
  /-- `WR_UNMAPPED` (40_dispatcher.md R125). -/
  | wrUnmapped (addr d : Word)
  /-- `RD_CLK_WORD` (41_clockgen.md R151). -/
  | rdClkWord (off : Nat)
  /-- `WR_CLK_WORD` (41_clockgen.md R152). -/
  | wrClkWord (off : Nat) (d : Word)
  /-- `RD_CLK_CORE` (41_clockgen.md R151). -/
  | rdClkCore
  /-- `RD_CLK_MEM` (41_clockgen.md R151). -/
  | rdClkMem
  /-- `RD_CLK_VID` (41_clockgen.md R151). -/
  | rdClkVid
  /-- `WR_CLK_CORE` (41_clockgen.md R152). -/
  | wrClkCore (d : Word)
  /-- `WR_CLK_MEM` (41_clockgen.md R152). -/
  | wrClkMem (d : Word)
  /-- `WR_CLK_VID` (41_clockgen.md R152). -/
  | wrClkVid (d : Word)
  /-- `RD_CLK_MISALIGNED` (41_clockgen.md R153). -/
  | rdClkMisaligned (off : Nat)
  /-- `WR_CLK_MISALIGNED` (41_clockgen.md R153). -/
  | wrClkMisaligned (off : Nat) (d : Word)
  /-- `RD_TMR_INTR` (42_timer.md R177). -/
  | rdTmrIntr
  /-- `RD_TMR_INTR_EN` (42_timer.md R178). -/
  | rdTmrIntrEn
  /-- `RD_TMR_MUL` (42_timer.md R179). -/
  | rdTmrMul
  /-- `RD_TMR_DIV` (42_timer.md R180). -/
  | rdTmrDiv
  /-- `RD_TMR_TIME_LO` (42_timer.md R181). -/
  | rdTmrTimeLo
  /-- `RD_TMR_TIME_HI` (42_timer.md R182). -/
  | rdTmrTimeHi
  /-- `RD_TMR_ALARM` (42_timer.md R183). -/
  | rdTmrAlarm
  /-- `RD_TMR_OTHER` (42_timer.md R184). -/
  | rdTmrOther (off : Nat)
  /-- `WR_TMR_INTR` (42_timer.md R185). -/
  | wrTmrIntr (d : Word)
  /-- `WR_TMR_INTR_EN` (42_timer.md R186). -/
  | wrTmrIntrEn (d : Word)
  /-- `WR_TMR_MUL` (42_timer.md R187). -/
  | wrTmrMul (d : Word)
  /-- `WR_TMR_DIV` (42_timer.md R188). -/
  | wrTmrDiv (d : Word)
  /-- `WR_TMR_TIME_LO` (42_timer.md R189). -/
  | wrTmrTimeLo (d : Word)
  /-- `WR_TMR_TIME_HI` (42_timer.md R190). -/
  | wrTmrTimeHi (d : Word)
  /-- `WR_TMR_ALARM` (42_timer.md R191). -/
  | wrTmrAlarm (d : Word)
  /-- `WR_TMR_OTHER` (42_timer.md R192). -/
  | wrTmrOther (off : Nat) (d : Word)
  /-- `RD_BLK_WORD` (43_shell_engines.md R221). -/
  | rdBlkWord (e off : Nat)
  /-- `WR_BLK_WORD` (43_shell_engines.md R222). -/
  | wrBlkWord (e off : Nat) (d : Word)
  /-- `RD_BLK_MISALIGNED` (43_shell_engines.md R223). -/
  | rdBlkMisaligned (e off : Nat)
  /-- `WR_BLK_MISALIGNED` (43_shell_engines.md R223). -/
  | wrBlkMisaligned (e off : Nat) (d : Word)
  /-- `RD_SHELL_INTR` (43_shell_engines.md R227). -/
  | rdShellIntr (e : Nat)
  /-- `RD_SHELL_INTR_EN` (43_shell_engines.md R228). -/
  | rdShellIntrEn (e : Nat)
  /-- `WR_SHELL_INTR` (43_shell_engines.md R229). -/
  | wrShellIntr (e : Nat) (d : Word)
  /-- `WR_SHELL_INTR_EN` (43_shell_engines.md R230). -/
  | wrShellIntrEn (e : Nat) (d : Word)
  /-- `RD_SHELL_OTHER` (43_shell_engines.md R231). -/
  | rdShellOther (e off : Nat)
  /-- `WR_SHELL_OTHER` (43_shell_engines.md R231). -/
  | wrShellOther (e off : Nat) (d : Word)
  /-- `RESET` (40_dispatcher.md R133). -/
  | reset
  /-- `TMR_ENABLE` (42_timer.md R193). -/
  | tmrEnable
  /-- `TMR_DISABLE` (42_timer.md R194). -/
  | tmrDisable
  /-- `HW_EVENT` (43_shell_engines.md R232). -/
  | hwEvent (e : Nat) (bits : Word)
  /-- `ALARM_CHECK` (42_timer.md R200). -/
  | alarmCheck
deriving DecidableEq, Repr

/-- The bits of one operation as an agent presents it (DESIGN CHOICE, log 2). For an MMIO transaction this is the record
{we, addr, wdata} of 30_encoding.md R90, with `ctl` 0 for we = 0 and 1 for we = 1; for an environment operation
(R91) `ctl` is its tag, and `HW_EVENT` carries the base address of its engine's window in `addr` and its bits in
`wdata`. -/
structure Packet where
  addr : Word
  wdata : Word
  ctl : BitVec 8
deriving DecidableEq, Repr

/-- A packet performed at an instant (00_scope.md R10, R11). -/
structure Request where
  instant : Nat
  packet : Packet
deriving DecidableEq, Repr

end Sys2Proof
end

