-- ==== Sys2Proof/WellFormed.lean ====
section
/-! DEFINITION. Well-formed configurations (00_scope.md R8) and well-formed operations: those an access of the block can
decode to under a configuration (30_encoding.md R92, R93). -/

namespace Sys2Proof

/-- R8 (a): a window is not empty and lies inside the 32-bit space. -/
def Engine.inSpace (e : Engine) : Bool := decide (0 < e.size) && decide (e.base + e.size ≤ 2 ^ 32)

/-- R8 (b), for two engines: neither window meets the other. -/
def Engine.apart (e f : Engine) : Bool := decide (e.base + e.size ≤ f.base) || decide (f.base + f.size ≤ e.base)

/-- R8 (c): base and size are multiples of 4. -/
def Engine.aligned (e : Engine) : Bool := decide (e.base % 4 = 0) && decide (e.size % 4 = 0)

/-- R8 (a), (c) for every engine. -/
def Cfg.windowsOk (c : Cfg) : Bool := c.engines.all fun e => e.inSpace && e.aligned

/-- R8 (b): no two engines overlap. -/
def Cfg.disjoint (c : Cfg) : Bool := decide (c.engines.Pairwise fun e f => e.apart f = true)

/-- R8 (d): exactly one clock generator and exactly one timer. -/
def Cfg.singletons (c : Cfg) : Bool :=
  decide ((c.engines.filter fun e => e.kind == .clkGen).length = 1) &&
  decide ((c.engines.filter fun e => e.kind == .timer).length = 1)

/-- R8 (e): offsets are multiples of 4, inside every window of their kind, and distinct within a kind. -/
def Cfg.offsetsOk (c : Cfg) : Bool :=
  (c.clkOffs ++ c.tmrOffs ++ c.shellOffs).all (fun o => decide (o % 4 = 0)) &&
  c.engines.all (fun e => (c.offsOf e.kind).all fun o => decide (o < e.size)) &&
  decide c.clkOffs.Nodup && decide c.tmrOffs.Nodup && decide c.shellOffs.Nodup

/-- R8 (f): a positive time unit and an alarm bit inside the word. -/
def Cfg.paramsOk (c : Cfg) : Bool := decide (0 < c.tu) && decide (c.tmrAlarmBit < 32)

/-- R8 (g): engine names are pairwise distinct. -/
def Cfg.namesOk (c : Cfg) : Bool := decide (c.engines.map (·.name)).Nodup

/-- A well-formed configuration (00_scope.md R8). -/
def Cfg.wf (c : Cfg) : Bool :=
  c.windowsOk && c.disjoint && c.singletons && c.offsetsOk && c.paramsOk && c.namesOk

/-- The engine at position `e` has kind `k` and satisfies `p`. -/
def Cfg.holdsAt (c : Cfg) (e : Nat) (k : EngineKind) (p : Engine → Bool) : Bool :=
  match c.engineAt e with
  | some en => (en.kind == k) && p en
  | none => false

/-- The first engine of kind `k` exists and satisfies `p`. -/
def Cfg.holdsFirst (c : Cfg) (k : EngineKind) (p : Engine → Bool) : Bool :=
  match c.firstOf k with
  | some en => p en
  | none => false

/-- An address in no window (40_dispatcher.md R121). -/
def Cfg.unmapped (c : Cfg) (addr : Word) : Bool := c.engines.all fun e => !e.contains addr.toNat

/-- An aligned offset of the CLKGEN window that is none of the three coefficient words (30_encoding.md R92, R104). -/
def Cfg.clkPlainOff (c : Cfg) (off : Nat) : Bool :=
  c.holdsFirst .clkGen (fun en => decide (off < en.size)) && decide (off % 4 = 0) && decide (off ∉ c.clkOffs)

/-- A misaligned offset of the CLKGEN window. -/
def Cfg.clkMisOff (c : Cfg) (off : Nat) : Bool :=
  c.holdsFirst .clkGen (fun en => decide (off < en.size)) && decide (off % 4 ≠ 0)

/-- An offset of the TIMER window that is no timer register. -/
def Cfg.tmrOtherOff (c : Cfg) (off : Nat) : Bool :=
  c.holdsFirst .timer (fun en => decide (off < en.size)) && decide (off ∉ c.tmrOffs)

/-- An offset of an INTR_SHELL window that is neither of its registers. -/
def Cfg.shellOtherOff (c : Cfg) (e off : Nat) : Bool :=
  c.holdsAt e .intrShell (fun en => decide (off < en.size)) && decide (off ∉ c.shellOffs)

/-- A well-formed operation under a configuration: one that some transaction selects (30_encoding.md R92). -/
def Instr.wf (c : Cfg) : Instr → Bool
  | .rdUnmapped addr => c.unmapped addr
  | .wrUnmapped addr _ => c.unmapped addr
  | .rdClkWord off => c.clkPlainOff off
  | .wrClkWord off _ => c.clkPlainOff off
  | .rdClkCore => true
  | .rdClkMem => true
  | .rdClkVid => true
  | .wrClkCore _ => true
  | .wrClkMem _ => true
  | .wrClkVid _ => true
  | .rdClkMisaligned off => c.clkMisOff off
  | .wrClkMisaligned off _ => c.clkMisOff off
  | .rdTmrIntr => true
  | .rdTmrIntrEn => true
  | .rdTmrMul => true
  | .rdTmrDiv => true
  | .rdTmrTimeLo => true
  | .rdTmrTimeHi => true
  | .rdTmrAlarm => true
  | .rdTmrOther off => c.tmrOtherOff off
  | .wrTmrIntr _ => true
  | .wrTmrIntrEn _ => true
  | .wrTmrMul _ => true
  | .wrTmrDiv _ => true
  | .wrTmrTimeLo _ => true
  | .wrTmrTimeHi _ => true
  | .wrTmrAlarm _ => true
  | .wrTmrOther off _ => c.tmrOtherOff off
  | .rdBlkWord e off => c.holdsAt e .regBlock fun en => decide (off < en.size) && decide (off % 4 = 0)
  | .wrBlkWord e off _ => c.holdsAt e .regBlock fun en => decide (off < en.size) && decide (off % 4 = 0)
  | .rdBlkMisaligned e off => c.holdsAt e .regBlock fun en => decide (off < en.size) && decide (off % 4 ≠ 0)
  | .wrBlkMisaligned e off _ => c.holdsAt e .regBlock fun en => decide (off < en.size) && decide (off % 4 ≠ 0)
  | .rdShellIntr e => c.holdsAt e .intrShell fun _ => true
  | .rdShellIntrEn e => c.holdsAt e .intrShell fun _ => true
  | .wrShellIntr e _ => c.holdsAt e .intrShell fun _ => true
  | .wrShellIntrEn e _ => c.holdsAt e .intrShell fun _ => true
  | .rdShellOther e off => c.shellOtherOff e off
  | .wrShellOther e off _ => c.shellOtherOff e off
  | .reset => true
  | .tmrEnable => true
  | .tmrDisable => true
  | .hwEvent e _ => c.holdsAt e .intrShell fun _ => true
  | .alarmCheck => true

end Sys2Proof
end

