-- ==== Sys2Proof/Decode.lean ====
section
/-! DEFINITION. Routing (40_dispatcher.md R121), the decode of a transaction into an operation (30_encoding.md R93), the
encoder beside it, and the opcode table's numbering of a transaction's bits. -/

namespace Sys2Proof

/-- What `Route(addr)` answers inside a window: the engine's position, its descriptor and the offset. -/
structure Routed where
  id : Nat
  engine : Engine
  off : Nat
deriving DecidableEq, Repr

/-- `Route(addr)` (40_dispatcher.md R121): the engine whose window contains the address, and `addr - base`. -/
def route (c : Cfg) (addr : Word) : Option Routed :=
  (c.engines.zipIdx.find? fun p => p.1.contains addr.toNat).map fun p =>
    { id := p.2, engine := p.1, off := addr.toNat - p.1.base }

/-- Why a packet is no operation of the block. Every one is safe: the model stops where the spec has no operation. -/
inductive DecodeError where
  /-- Raised by `decode` for a tag that is neither an MMIO transaction's nor an operation's of 30_encoding.md R91. -/
  | unknownTag (ctl : BitVec 8)
  /-- Raised by `decode` for an environment operation without operands (R91) whose operand fields are not zero. -/
  | strayOperand (ctl : BitVec 8)
  /-- Raised by `decode` for a HW_EVENT that names no INTR_SHELL engine (43_shell_engines.md R232). -/
  | noSuchShell (addr : Word)
deriving DecidableEq, Repr

/-- The tag of a read, we = 0 (30_encoding.md R90). -/
def tagRead : BitVec 8 := 0
/-- The tag of a write, we = 1 (30_encoding.md R90). -/
def tagWrite : BitVec 8 := 1
/-- The tag of RESET (30_encoding.md R91; its number is a DESIGN CHOICE, log 2). -/
def tagReset : BitVec 8 := 2
/-- The tag of TMR_ENABLE. -/
def tagTmrEnable : BitVec 8 := 3
/-- The tag of TMR_DISABLE. -/
def tagTmrDisable : BitVec 8 := 4
/-- The tag of HW_EVENT. -/
def tagHwEvent : BitVec 8 := 5
/-- The tag of ALARM_CHECK. -/
def tagAlarmCheck : BitVec 8 := 6

/-- The read operation a routed address selects (30_encoding.md R93, `we = 0`). -/
def decodeRead (c : Cfg) (r : Routed) : Instr :=
  match r.engine.kind with
  | .clkGen =>
    if r.off % 4 ≠ 0 then .rdClkMisaligned r.off
    else if r.off = c.clkCoreOff then .rdClkCore
    else if r.off = c.clkMemOff then .rdClkMem
    else if r.off = c.clkVidOff then .rdClkVid
    else .rdClkWord r.off
  | .regBlock =>
    if r.off % 4 ≠ 0 then .rdBlkMisaligned r.id r.off else .rdBlkWord r.id r.off
  | .timer =>
    if r.off = c.tmrIntrOff then .rdTmrIntr
    else if r.off = c.tmrIntrEnOff then .rdTmrIntrEn
    else if r.off = c.tmrMulOff then .rdTmrMul
    else if r.off = c.tmrDivOff then .rdTmrDiv
    else if r.off = c.tmrTimeLoOff then .rdTmrTimeLo
    else if r.off = c.tmrTimeHiOff then .rdTmrTimeHi
    else if r.off = c.tmrAlarmOff then .rdTmrAlarm
    else .rdTmrOther r.off
  | .intrShell =>
    if r.off = c.shellIntrOff then .rdShellIntr r.id
    else if r.off = c.shellIntrEnOff then .rdShellIntrEn r.id
    else .rdShellOther r.id r.off

/-- The write operation a routed address selects (30_encoding.md R93, `we = 1`). -/
def decodeWrite (c : Cfg) (r : Routed) (d : Word) : Instr :=
  match r.engine.kind with
  | .clkGen =>
    if r.off % 4 ≠ 0 then .wrClkMisaligned r.off d
    else if r.off = c.clkCoreOff then .wrClkCore d
    else if r.off = c.clkMemOff then .wrClkMem d
    else if r.off = c.clkVidOff then .wrClkVid d
    else .wrClkWord r.off d
  | .regBlock =>
    if r.off % 4 ≠ 0 then .wrBlkMisaligned r.id r.off d else .wrBlkWord r.id r.off d
  | .timer =>
    if r.off = c.tmrIntrOff then .wrTmrIntr d
    else if r.off = c.tmrIntrEnOff then .wrTmrIntrEn d
    else if r.off = c.tmrMulOff then .wrTmrMul d
    else if r.off = c.tmrDivOff then .wrTmrDiv d
    else if r.off = c.tmrTimeLoOff then .wrTmrTimeLo d
    else if r.off = c.tmrTimeHiOff then .wrTmrTimeHi d
    else if r.off = c.tmrAlarmOff then .wrTmrAlarm d
    else .wrTmrOther r.off d
  | .intrShell =>
    if r.off = c.shellIntrOff then .wrShellIntr r.id d
    else if r.off = c.shellIntrEnOff then .wrShellIntrEn r.id d
    else .wrShellOther r.id r.off d

/-- An environment operation that takes no operand: its operand fields are zero (30_encoding.md R91; DESIGN CHOICE,
log 2). -/
def decodeBare (p : Packet) (i : Instr) : Except DecodeError Instr :=
  if p.addr = 0 ∧ p.wdata = 0 then .ok i else .error (.strayOperand p.ctl)

/-- `HW_EVENT(e, bits)`: the engine is the INTR_SHELL engine whose window begins at `addr` (30_encoding.md R91; DESIGN
CHOICE, log 2). -/
def decodeHwEvent (c : Cfg) (p : Packet) : Except DecodeError Instr :=
  match route c p.addr with
  | some r =>
    if r.engine.kind = .intrShell ∧ r.off = 0 then .ok (.hwEvent r.id p.wdata) else .error (.noSuchShell p.addr)
  | none => .error (.noSuchShell p.addr)

/-- The decode of a transaction under a configuration (30_encoding.md R93, R91). A read ignores `wdata` (R90). -/
def decode (c : Cfg) (p : Packet) : Except DecodeError Instr :=
  if p.ctl = tagRead then
    match route c p.addr with
    | none => .ok (.rdUnmapped p.addr)
    | some r => .ok (decodeRead c r)
  else if p.ctl = tagWrite then
    match route c p.addr with
    | none => .ok (.wrUnmapped p.addr p.wdata)
    | some r => .ok (decodeWrite c r p.wdata)
  else if p.ctl = tagReset then decodeBare p .reset
  else if p.ctl = tagTmrEnable then decodeBare p .tmrEnable
  else if p.ctl = tagTmrDisable then decodeBare p .tmrDisable
  else if p.ctl = tagHwEvent then decodeHwEvent c p
  else if p.ctl = tagAlarmCheck then decodeBare p .alarmCheck
  else .error (.unknownTag p.ctl)

/-! The encoder. -/

/-- The address of offset `off` in the window of the first engine of a kind. -/
def addrInFirst (c : Cfg) (k : EngineKind) (off : Nat) : Word :=
  match c.firstOf k with
  | some en => BitVec.ofNat 32 (en.base + off)
  | none => 0

/-- The address of offset `off` in the window of the engine at position `e`. -/
def addrAt (c : Cfg) (e off : Nat) : Word :=
  match c.engineAt e with
  | some en => BitVec.ofNat 32 (en.base + off)
  | none => 0

/-- The record of a read: we = 0, `wdata` absent, written zero (30_encoding.md R90). -/
def rdPacket (addr : Word) : Packet := { addr := addr, wdata := 0, ctl := tagRead }

/-- The record of a write: we = 1 (30_encoding.md R90). -/
def wrPacket (addr d : Word) : Packet := { addr := addr, wdata := d, ctl := tagWrite }

/-- The record of an environment operation without operands (30_encoding.md R91). -/
def envPacket (tag : BitVec 8) : Packet := { addr := 0, wdata := 0, ctl := tag }

/-- The transaction that selects an operation (30_encoding.md R90 to R92). -/
def encode (c : Cfg) : Instr → Packet
  | .rdUnmapped addr => rdPacket addr
  | .wrUnmapped addr d => wrPacket addr d
  | .rdClkWord off => rdPacket (addrInFirst c .clkGen off)
  | .wrClkWord off d => wrPacket (addrInFirst c .clkGen off) d
  | .rdClkCore => rdPacket (addrInFirst c .clkGen c.clkCoreOff)
  | .rdClkMem => rdPacket (addrInFirst c .clkGen c.clkMemOff)
  | .rdClkVid => rdPacket (addrInFirst c .clkGen c.clkVidOff)
  | .wrClkCore d => wrPacket (addrInFirst c .clkGen c.clkCoreOff) d
  | .wrClkMem d => wrPacket (addrInFirst c .clkGen c.clkMemOff) d
  | .wrClkVid d => wrPacket (addrInFirst c .clkGen c.clkVidOff) d
  | .rdClkMisaligned off => rdPacket (addrInFirst c .clkGen off)
  | .wrClkMisaligned off d => wrPacket (addrInFirst c .clkGen off) d
  | .rdTmrIntr => rdPacket (addrInFirst c .timer c.tmrIntrOff)
  | .rdTmrIntrEn => rdPacket (addrInFirst c .timer c.tmrIntrEnOff)
  | .rdTmrMul => rdPacket (addrInFirst c .timer c.tmrMulOff)
  | .rdTmrDiv => rdPacket (addrInFirst c .timer c.tmrDivOff)
  | .rdTmrTimeLo => rdPacket (addrInFirst c .timer c.tmrTimeLoOff)
  | .rdTmrTimeHi => rdPacket (addrInFirst c .timer c.tmrTimeHiOff)
  | .rdTmrAlarm => rdPacket (addrInFirst c .timer c.tmrAlarmOff)
  | .rdTmrOther off => rdPacket (addrInFirst c .timer off)
  | .wrTmrIntr d => wrPacket (addrInFirst c .timer c.tmrIntrOff) d
  | .wrTmrIntrEn d => wrPacket (addrInFirst c .timer c.tmrIntrEnOff) d
  | .wrTmrMul d => wrPacket (addrInFirst c .timer c.tmrMulOff) d
  | .wrTmrDiv d => wrPacket (addrInFirst c .timer c.tmrDivOff) d
  | .wrTmrTimeLo d => wrPacket (addrInFirst c .timer c.tmrTimeLoOff) d
  | .wrTmrTimeHi d => wrPacket (addrInFirst c .timer c.tmrTimeHiOff) d
  | .wrTmrAlarm d => wrPacket (addrInFirst c .timer c.tmrAlarmOff) d
  | .wrTmrOther off d => wrPacket (addrInFirst c .timer off) d
  | .rdBlkWord e off => rdPacket (addrAt c e off)
  | .wrBlkWord e off d => wrPacket (addrAt c e off) d
  | .rdBlkMisaligned e off => rdPacket (addrAt c e off)
  | .wrBlkMisaligned e off d => wrPacket (addrAt c e off) d
  | .rdShellIntr e => rdPacket (addrAt c e c.shellIntrOff)
  | .rdShellIntrEn e => rdPacket (addrAt c e c.shellIntrEnOff)
  | .wrShellIntr e d => wrPacket (addrAt c e c.shellIntrOff) d
  | .wrShellIntrEn e d => wrPacket (addrAt c e c.shellIntrEnOff) d
  | .rdShellOther e off => rdPacket (addrAt c e off)
  | .wrShellOther e off d => wrPacket (addrAt c e off) d
  | .reset => envPacket tagReset
  | .tmrEnable => envPacket tagTmrEnable
  | .tmrDisable => envPacket tagTmrDisable
  | .hwEvent e bits => { addr := addrAt c e 0, wdata := bits, ctl := tagHwEvent }
  | .alarmCheck => envPacket tagAlarmCheck

/-- A packet with the fields its operation does not have set to zero: a read has no `wdata` (30_encoding.md R90). -/
def Packet.canonical (p : Packet) : Packet := if p.ctl = tagRead then { p with wdata := 0 } else p

/-- The fields of a transaction's bits in the opcode table's numbering: the table gives the 32 bits of `addr`, so these
are bits 31..0; `wdata` counts on from them and the tag from `wdata` (30_encoding.md R104; DESIGN CHOICE, log 2). -/
def packetOfBits (w : Nat) : Packet :=
  { addr := BitVec.ofNat 32 w, wdata := BitVec.ofNat 32 (w / 2 ^ 32), ctl := BitVec.ofNat 8 (w / 2 ^ 64) }

/-- The bits of a transaction, the inverse of `packetOfBits`. -/
def bitsOfPacket (p : Packet) : Nat := p.addr.toNat + p.wdata.toNat * 2 ^ 32 + p.ctl.toNat * 2 ^ 64

/-- The operation the decoder reads, under REFCFG, from a transaction whose low `nbits` bits are those of `w` and
whose other bits are zero. The table numbers only `addr`; the bits above it, `we` among them, are zero: a read (DESIGN
CHOICE, log 11). -/
def decodeTableWord (nbits w : Nat) : Option Instr :=
  match decode refCfg (packetOfBits (w % 2 ^ nbits)) with
  | .ok i => some i
  | .error _ => none

end Sys2Proof
end

