-- ==== Sys2Proof/Machine/State.lean ====
section
/-! DEFINITION. The state of the block (10_state.md R21), the model's own input and output fields beside it, the reasons a
step can stop, and the state at power-on (R50). -/

namespace Sys2Proof.Machine

/-- A sparse array: (index, value) pairs, indices strictly rising, no entry equal to the default an unlisted index reads
as (DESIGN CHOICE, log 5). -/
abbrev Store (α : Type) := List (Nat × α)

/-- Pass-through words by word index; an unlisted word reads 0x00000000, its reset value (10_state.md R50). -/
abbrev Memory := Store Word

/-- `S.disp` (10_state.md R25). -/
structure Disp where
  irqLine : Bool
deriving DecidableEq, Repr

/-- `S.clk` (10_state.md R26, R27). -/
structure Clk where
  word : Memory
deriving DecidableEq, Repr

/-- `S.tmr` (10_state.md R28 to R38). -/
structure Tmr where
  enabled : Bool
  pending : Word
  mask : Word
  mul : Word
  div : Word
  alarm : Word
  ticks : Ticks
  baseline : Nat
deriving DecidableEq, Repr

/-- `S.shell[e]` (10_state.md R39). -/
structure Shell where
  pending : Word
  mask : Word
deriving DecidableEq, Repr

/-- An event of the output trace (10_state.md R25). `Log` diagnostics are not emitted (40_dispatcher.md R127; DESIGN
CHOICE, log 6). -/
inductive Event where
  | notify (level : Bool) (at_ : Nat)
deriving DecidableEq, Repr

/-- The state. `disp`, `clk`, `tmr`, `shell`, `blk`, `trace` are the spec's record S (10_state.md R21), `shell` and
`blk` by the engine's position in ENGINES; the other six are the model's own. -/
structure State where
  /-- CFG, constant over a run (00_scope.md R7; DESIGN CHOICE, log 1). -/
  cfg : Cfg
  /-- `S.disp` (R25). -/
  disp : Disp
  /-- `S.clk` (R26). -/
  clk : Clk
  /-- `S.tmr` (R28). -/
  tmr : Tmr
  /-- `S.shell[e]` (R39). -/
  shell : Store Shell
  /-- `S.blk[e].word[i]` (R40). -/
  blk : Store Memory
  /-- `S.trace` (R25), oldest event first. -/
  trace : List Event
  /-- The value the last operation returned, none if it returns nothing (30_encoding.md R90; DESIGN CHOICE, log 4). -/
  rdata : Option Word
  /-- The instant of the operation under way or of the last one (00_scope.md R11; DESIGN CHOICE, log 3). -/
  now : Nat
  /-- The operations the agents have still to perform, in their total order (00_scope.md R10; DESIGN CHOICE, log 2). -/
  port : List Request
  /-- How many free instants have been drawn for the alarm monitor (DESIGN CHOICE, log 8). -/
  draws : Nat
  /-- The instant from which the present deadline has stood: that of the latest step that changed it
  (DESIGN CHOICE, log 8, log 17). -/
  deadlineSince : Nat
deriving DecidableEq, Repr

/-- The block has no fault: "no operation fails" (60_exceptions.md R240), so there is no constructor
(DEDUCED, log 7). -/
inductive Fault where
deriving DecidableEq, Repr

/-- Inputs for which the block has no step. Every one is safe: the model stops where the spec has no run. -/
inductive Refusal where
  /-- Raised by an arm of `exec` for an operation without a meaning; no arm raises it. Safe. -/
  | notModelled (mnemonic : String)
  /-- Raised by `step` under an ill-formed configuration: "refuses any other" (00_scope.md R8). Safe. -/
  | illFormedCfg
  /-- Raised by `step` for an instant before the previous operation's (00_scope.md R11). Safe. -/
  | clockBackward
  /-- Raised by `ALARM_CHECK` when its guard is false: "the step does not exist" (42_timer.md R200). Safe. -/
  | alarmNotDue
  /-- Raised by `step` for a packet that is no operation (30_encoding.md R90, R91; DESIGN CHOICE, log 2). Safe. -/
  | badPacket (why : DecodeError)
deriving DecidableEq, Repr

/-- The timer at power-on and after its Reset() at instant `now` (10_state.md R50, 42_timer.md R195). -/
def Tmr.resetAt (now : Nat) : Tmr where
  enabled := false
  pending := 0
  mask := 0
  mul := 0
  div := 0
  alarm := 0
  ticks := 0
  baseline := now

/-- Power-on (construction) of a block with configuration `c` at instant `t` (10_state.md R50, 70_reset_and_hazards.md
R270), with no operation waiting. -/
def State.powerOn (c : Cfg) (t : Nat) : State where
  cfg := c
  disp := { irqLine := false }
  clk := { word := [] }
  tmr := Tmr.resetAt t
  shell := []
  blk := []
  trace := []
  rdata := none
  now := t
  port := []
  draws := 0
  deadlineSince := t

/-- The machine right after reset: power-on of the reference configuration at instant 0 (10_state.md R24, R50; DESIGN
CHOICE, log 15). -/
def State.reset : State := State.powerOn refCfg 0

end Sys2Proof.Machine
end

