-- ==== Sys2Proof/Machine/Operands.lean ====
section
/-! DEFINITION. Register layouts as pure functions (30_encoding.md R94 to R99): the PLL fields and the frequency they
decode to, the two views of the tick count, and write-1-to-clear. -/

namespace Sys2Proof.Machine

/-- Field M of a coefficient word, bits 7:0 (30_encoding.md R94). -/
def pllM (w : Word) : Nat := (w.extractLsb' 0 8).toNat

/-- Field N of a coefficient word, bits 15:8 (30_encoding.md R94). -/
def pllN (w : Word) : Nat := (w.extractLsb' 8 8).toNat

/-- Field P of a coefficient word, bits 18:16 (30_encoding.md R94). -/
def pllP (w : Word) : Nat := (w.extractLsb' 16 3).toNat

/-- The divisor a zero field stands for is 1 (41_clockgen.md R158, 42_timer.md R171, 60_exceptions.md R242). -/
def orOne (n : Nat) : Nat := if n = 0 then 1 else n

/-- `PllFreq(w)` in hertz: the whole numerator first, one floor division (41_clockgen.md R155, R158). -/
def pllFreq (c : Cfg) (w : Word) : Nat := c.fRef * pllN w / (orOne (pllM w) * 2 ^ pllP w)

/-- What a read of TMR_TIME_LO assembles: `ticks[26:0]` at bits 31:5, zeros below (30_encoding.md R95). -/
def timeLoView (t : Ticks) : Word := t.extractLsb' 0 27 ++ (0 : BitVec 5)

/-- What a read of TMR_TIME_HI assembles: `ticks[55:27]` at bits 28:0, zeros above (30_encoding.md R96). -/
def timeHiView (t : Ticks) : Word := (0 : BitVec 3) ++ t.extractLsb' 27 29

/-- The count after a write of TMR_TIME_LO: `wdata[31:5]` replaces the low 27 bits (30_encoding.md R95). -/
def withTimeLo (t : Ticks) (d : Word) : Ticks := t.extractLsb' 27 29 ++ d.extractLsb' 5 27

/-- The count after a write of TMR_TIME_HI: `wdata[28:0]` replaces the high 29 bits (30_encoding.md R96). -/
def withTimeHi (t : Ticks) (d : Word) : Ticks := d.extractLsb' 0 29 ++ t.extractLsb' 0 27

/-- Write-1-to-clear of a pending field (20_memory.md R72, 42_timer.md R185). -/
def clearBits (pending d : Word) : Word := pending &&& ~~~d

/-- The word with the alarm bit alone, `1 << TMR_ALARM_BIT` (42_timer.md R176). -/
def alarmMask (c : Cfg) : Word := BitVec.ofNat 32 (2 ^ c.tmrAlarmBit)

/-- The least natural `q` with `q * b` at least `a`, for positive `b` (the `ceil` of 42_timer.md R175). -/
def ceilDiv (a b : Nat) : Nat := (a + b - 1) / b

end Sys2Proof.Machine
end

