-- ==== Sys2Proof/Machine/Flags.lean ====
section
/-! DEFINITION. The pure functions of the state: the sparse array read, the clock frequencies (41_clockgen.md R156, R157),
the elapsed ticks, the alarm crossing and its deadline (42_timer.md R171 to R175), the interrupt conditions
(40_dispatcher.md R128, R129). -/

namespace Sys2Proof.Machine

/-- The element at an index of a sparse array, `d` where nothing is listed (DESIGN CHOICE, log 5). -/
def Store.read {α : Type} (d : α) : Store α → Nat → α
  | [], _ => d
  | (k, v) :: m, i => if i = k then v else Store.read d m i

/-- A word of a pass-through memory; a word never written since reset reads 0 (41_clockgen.md R151). -/
def Memory.read (m : Memory) (i : Nat) : Word := Store.read 0 m i

/-- `S.shell[e]` (10_state.md R39). -/
def State.shellAt (s : State) (e : Nat) : Shell := Store.read { pending := 0, mask := 0 } s.shell e

/-- `S.blk[e].word` (10_state.md R40). -/
def State.blkAt (s : State) (e : Nat) : Memory := Store.read [] s.blk e

/-- `CoreFreq` (41_clockgen.md R156). -/
def State.coreFreq (s : State) : Nat := pllFreq s.cfg (s.clk.word.read (s.cfg.clkCoreOff / 4))

/-- `MemFreq`, an output of the block (41_clockgen.md R157). -/
def State.memFreq (s : State) : Nat := pllFreq s.cfg (s.clk.word.read (s.cfg.clkMemOff / 4))

/-- `VidFreq`, an output of the block (41_clockgen.md R157). -/
def State.vidFreq (s : State) : Nat := pllFreq s.cfg (s.clk.word.read (s.cfg.clkVidOff / 4))

/-- `DivEff`: the divisor of the rate, 1 in the place of 0 (42_timer.md R171). -/
def State.divEff (s : State) : Nat := orOne s.tmr.div.toNat

/-- `RateNum` (42_timer.md R172). -/
def State.rateNum (s : State) : Nat := s.coreFreq * s.tmr.mul.toNat

/-- `RateDen` (42_timer.md R172). -/
def State.rateDen (s : State) : Nat := s.divEff

/-- `Delta(S, now)`: the whole ticks elapsed since the baseline, one floor (42_timer.md R173). -/
def State.delta (s : State) (now : Nat) : Nat :=
  if s.tmr.enabled then (now - s.tmr.baseline) * s.rateNum / (s.cfg.tu * s.rateDen) else 0

/-- `dist` of 42_timer.md R174: the ticks from `old` to the alarm value, a whole lap where they are equal. -/
def alarmDist (old : Ticks) (alarm : Word) : Nat :=
  if (alarm.setWidth 56 - old).toNat = 0 then 2 ^ 56 else (alarm.setWidth 56 - old).toNat

/-- `Crosses(old, delta, alarm)` (42_timer.md R174). -/
def crosses (old : Ticks) (delta : Nat) (alarm : Word) : Bool := decide (alarmDist old alarm ≤ delta)

/-- `AlarmDue(S, now)` (42_timer.md R175). -/
def State.alarmDue (s : State) (now : Nat) : Bool :=
  s.tmr.enabled && crosses s.tmr.ticks (s.delta now) s.tmr.alarm

/-- `Deadline(S)` (42_timer.md R175). -/
def State.deadline (s : State) : Option Nat :=
  if s.tmr.enabled = false ∨ s.rateNum = 0 then none
  else some (s.tmr.baseline + ceilDiv (alarmDist s.tmr.ticks s.tmr.alarm * s.cfg.tu * s.rateDen) s.rateNum)

/-- `Asserting(e)` for the engine `en` at position `e`; an engine that bears no interrupt never asserts
(40_dispatcher.md R128, 10_state.md R23). -/
def State.asserting (s : State) (en : Engine) (e : Nat) : Bool :=
  match en.kind with
  | .timer => s.tmr.pending &&& s.tmr.mask != 0
  | .intrShell => (s.shellAt e).pending &&& (s.shellAt e).mask != 0
  | .clkGen => false
  | .regBlock => false

/-- `Aggregate(S)` (40_dispatcher.md R129). -/
def State.aggregate (s : State) : Bool := s.cfg.engines.zipIdx.any fun p => s.asserting p.1 p.2

end Sys2Proof.Machine
end

