-- ==== Sys2Proof/Machine/Ops.lean ====
section
/-! DEFINITION. The named operations over the state that the meanings share: the sparse array write, `Recompute`
(40_dispatcher.md R130), `Sync` (42_timer.md R176), the engine resets, and the two ways an operation ends.
`Recompute` is the block's interrupt output, its one counterpart of taking an exception: the block saves no state, switches
no mode and has no return operation (60_exceptions.md R248, R249). -/

namespace Sys2Proof.Machine

/-- Replace one element of a sparse array, keeping its canonical form: indices rising, no entry equal to `d` (DESIGN
CHOICE, log 5). -/
def Store.write {α : Type} [DecidableEq α] (d : α) : Store α → Nat → α → Store α
  | [], i, x => if x = d then [] else [(i, x)]
  | (k, v) :: m, i, x =>
    if i < k then (if x = d then (k, v) :: m else (i, x) :: (k, v) :: m)
    else if i = k then (if x = d then m else (i, x) :: m)
    else (k, v) :: Store.write d m i x

/-- Replace one word of a pass-through memory. -/
def Memory.write (m : Memory) (i : Nat) (x : Word) : Memory := Store.write 0 m i x

/-- The operation ends and returns the value `v` to the bus master (30_encoding.md R90). -/
def State.reply (s : State) (v : Word) : State := { s with rdata := some v }

/-- The operation ends and returns nothing (30_encoding.md R90). -/
def State.ack (s : State) : State := { s with rdata := none }

/-- `emit Notify(level, now)` (00_scope.md R13). -/
def State.emitNotify (s : State) (level : Bool) (now : Nat) : State :=
  { s with trace := s.trace ++ [.notify level now] }

/-- Drive the interrupt line to a level (10_state.md R25). -/
def State.setLine (s : State) (level : Bool) : State := { s with disp := { irqLine := level } }

/-- `Recompute(now)` (40_dispatcher.md R130): drive the line to the aggregate, and announce the change if there is
one. -/
def State.recompute (s : State) (now : Nat) : State :=
  if s.aggregate = s.disp.irqLine then s
  else (s.setLine s.aggregate).emitNotify s.aggregate now

/-- The count after `d` ticks, modulo 2^56 (42_timer.md R176). -/
def advance (t : Ticks) (d : Nat) : Ticks := BitVec.ofNat 56 (t.toNat + d)

/-- Replace the timer's pending field. -/
def State.setPending (s : State) (x : Word) : State := { s with tmr := { s.tmr with pending := x } }

/-- Replace the timer's mask. -/
def State.setMask (s : State) (x : Word) : State := { s with tmr := { s.tmr with mask := x } }

/-- Replace the multiplier of the ratio. -/
def State.setMul (s : State) (x : Word) : State := { s with tmr := { s.tmr with mul := x } }

/-- Replace the divisor of the ratio. -/
def State.setDiv (s : State) (x : Word) : State := { s with tmr := { s.tmr with div := x } }

/-- Replace the alarm value. -/
def State.setAlarm (s : State) (x : Word) : State := { s with tmr := { s.tmr with alarm := x } }

/-- Disabled to Enabled, with the baseline at this instant (42_timer.md R193). -/
def State.enableAt (s : State) (now : Nat) : State :=
  { s with tmr := { s.tmr with enabled := true, baseline := now } }

/-- Set the alarm bit of the timer's pending field and recompute the line (42_timer.md R176). -/
def State.raiseAlarm (s : State) (now : Nat) : State :=
  (s.setPending (s.tmr.pending ||| alarmMask s.cfg)).recompute now

/-- Replace the tick count. -/
def State.setTicks (s : State) (t : Ticks) : State := { s with tmr := { s.tmr with ticks := t } }

/-- Record an instant as the new baseline. -/
def State.setBaseline (s : State) (now : Nat) : State := { s with tmr := { s.tmr with baseline := now } }

/-- `Sync(now)`, the tick-count algorithm (42_timer.md R176): while Enabled, advance the count by `Delta`, raise the
alarm if the advance crosses it; then record the baseline. -/
def State.sync (s : State) (now : Nat) : State :=
  if s.tmr.enabled then
    let counted := s.setTicks (advance s.tmr.ticks (s.delta now))
    let alarmed :=
      if crosses s.tmr.ticks (s.delta now) s.tmr.alarm then counted.raiseAlarm now else counted
    alarmed.setBaseline now
  else s.setBaseline now

/-- Write a word of the clock generator's storage (41_clockgen.md R152). -/
def State.writeClk (s : State) (i : Nat) (d : Word) : State := { s with clk := { word := s.clk.word.write i d } }

/-- Write a word of a register block's storage (43_shell_engines.md R222). -/
def State.writeBlk (s : State) (e i : Nat) (d : Word) : State :=
  { s with blk := Store.write [] s.blk e ((s.blkAt e).write i d) }

/-- Replace the pending and mask pair of an interrupt shell (10_state.md R39). -/
def State.setShell (s : State) (e : Nat) (x : Shell) : State :=
  { s with shell := Store.write { pending := 0, mask := 0 } s.shell e x }

/-- `EngineReset` of every engine of kind CLKGEN, REGBLOCK and INTR_SHELL (41_clockgen.md R154, 43_shell_engines.md
R225, R233): every word and every pair is zero. -/
def State.resetStorage (s : State) : State := { s with clk := { word := [] }, blk := [], shell := [] }

/-- `EngineReset(TIMER, now)` (42_timer.md R195). -/
def State.resetTimer (s : State) (now : Nat) : State := { s with tmr := Tmr.resetAt now }

end Sys2Proof.Machine
end

