-- ==== Sys2Proof/Machine/ClockGen.lean ====
section
/-! DEFINITION. The Clock Generator Engine's register accesses (41_clockgen.md). -/

namespace Sys2Proof.Machine

/-- `RD_CLK_WORD` (41_clockgen.md R151). -/
def execRdClkWord (off : Nat) (s : State) : Host.Outcome State Fault Refusal := .next (s.reply (s.clk.word.read (off / 4)))

/-- `WR_CLK_WORD`: the word alone, no `Sync`, no recomputation (41_clockgen.md R152). -/
def execWrClkWord (off : Nat) (d : Word) (s : State) : Host.Outcome State Fault Refusal := .next (s.writeClk (off / 4) d).ack

/-- `RD_CLK_CORE` (41_clockgen.md R151). -/
def execRdClkCore (s : State) : Host.Outcome State Fault Refusal := .next (s.reply (s.clk.word.read (s.cfg.clkCoreOff / 4)))

/-- `RD_CLK_MEM` (41_clockgen.md R151). -/
def execRdClkMem (s : State) : Host.Outcome State Fault Refusal := .next (s.reply (s.clk.word.read (s.cfg.clkMemOff / 4)))

/-- `RD_CLK_VID` (41_clockgen.md R151). -/
def execRdClkVid (s : State) : Host.Outcome State Fault Refusal := .next (s.reply (s.clk.word.read (s.cfg.clkVidOff / 4)))

/-- `WR_CLK_CORE`: no `Sync` (41_clockgen.md R152, 70_reset_and_hazards.md R282). -/
def execWrClkCore (d : Word) (s : State) : Host.Outcome State Fault Refusal := .next (s.writeClk (s.cfg.clkCoreOff / 4) d).ack

/-- `WR_CLK_MEM` (41_clockgen.md R152). -/
def execWrClkMem (d : Word) (s : State) : Host.Outcome State Fault Refusal := .next (s.writeClk (s.cfg.clkMemOff / 4) d).ack

/-- `WR_CLK_VID` (41_clockgen.md R152). -/
def execWrClkVid (d : Word) (s : State) : Host.Outcome State Fault Refusal := .next (s.writeClk (s.cfg.clkVidOff / 4) d).ack

/-- `RD_CLK_MISALIGNED`: zero, whatever the containing word holds (41_clockgen.md R153). -/
def execRdClkMisaligned (_off : Nat) (s : State) : Host.Outcome State Fault Refusal := .next (s.reply 0)

/-- `WR_CLK_MISALIGNED`: ignored (41_clockgen.md R153). -/
def execWrClkMisaligned (_off : Nat) (_d : Word) (s : State) : Host.Outcome State Fault Refusal := .next s.ack

end Sys2Proof.Machine
end

