-- ==== Sys2Proof/Machine/Dispatcher.lean ====
section
/-! DEFINITION. The Engine Dispatcher's own operations: the unmapped fallback and RESET (40_dispatcher.md). -/

namespace Sys2Proof.Machine

/-- `RD_UNMAPPED`: exactly zero (40_dispatcher.md R124). -/
def execRdUnmapped (_addr : Word) (s : State) : Host.Outcome State Fault Refusal := .next (s.reply 0)

/-- `WR_UNMAPPED`: nothing changes (40_dispatcher.md R125). -/
def execWrUnmapped (_addr _d : Word) (s : State) : Host.Outcome State Fault Refusal := .next s.ack

/-- `RESET`: every engine, then `Recompute` (40_dispatcher.md R133). -/
def execReset (s : State) : Host.Outcome State Fault Refusal :=
  .next ((s.resetStorage.resetTimer s.now).recompute s.now).ack

end Sys2Proof.Machine
end

