-- ==== Sys2Proof/Machine/ShellEngines.lean ====
section
/-! DEFINITION. The shell engines: register blocks and interrupt shells (43_shell_engines.md). -/

namespace Sys2Proof.Machine

/-- `RD_BLK_WORD` (43_shell_engines.md R221). -/
def execRdBlkWord (e off : Nat) (s : State) : Host.Outcome State Fault Refusal := .next (s.reply ((s.blkAt e).read (off / 4)))

/-- `WR_BLK_WORD` (43_shell_engines.md R222). -/
def execWrBlkWord (e off : Nat) (d : Word) (s : State) : Host.Outcome State Fault Refusal := .next (s.writeBlk e (off / 4) d).ack

/-- `RD_BLK_MISALIGNED`: zero (43_shell_engines.md R223). -/
def execRdBlkMisaligned (_e _off : Nat) (s : State) : Host.Outcome State Fault Refusal := .next (s.reply 0)

/-- `WR_BLK_MISALIGNED`: ignored (43_shell_engines.md R223). -/
def execWrBlkMisaligned (_e _off : Nat) (_d : Word) (s : State) : Host.Outcome State Fault Refusal := .next s.ack

/-- `RD_SHELL_INTR` (43_shell_engines.md R227). -/
def execRdShellIntr (e : Nat) (s : State) : Host.Outcome State Fault Refusal := .next (s.reply (s.shellAt e).pending)

/-- `RD_SHELL_INTR_EN` (43_shell_engines.md R228). -/
def execRdShellIntrEn (e : Nat) (s : State) : Host.Outcome State Fault Refusal := .next (s.reply (s.shellAt e).mask)

/-- `WR_SHELL_INTR`: write-1-to-clear, then `Recompute` (43_shell_engines.md R229). -/
def execWrShellIntr (e : Nat) (d : Word) (s : State) : Host.Outcome State Fault Refusal :=
  .next ((s.setShell e { s.shellAt e with pending := clearBits (s.shellAt e).pending d }).recompute s.now).ack

/-- `WR_SHELL_INTR_EN`: the mask is replaced whole, then `Recompute` (43_shell_engines.md R230). -/
def execWrShellIntrEn (e : Nat) (d : Word) (s : State) : Host.Outcome State Fault Refusal :=
  .next ((s.setShell e { s.shellAt e with mask := d }).recompute s.now).ack

/-- `RD_SHELL_OTHER`: zero (43_shell_engines.md R231). -/
def execRdShellOther (_e _off : Nat) (s : State) : Host.Outcome State Fault Refusal := .next (s.reply 0)

/-- `WR_SHELL_OTHER`: ignored (43_shell_engines.md R231). -/
def execWrShellOther (_e _off : Nat) (_d : Word) (s : State) : Host.Outcome State Fault Refusal := .next s.ack

/-- `HW_EVENT`: pending bits are set, then `Recompute` (43_shell_engines.md R232). -/
def execHwEvent (e : Nat) (bits : Word) (s : State) : Host.Outcome State Fault Refusal :=
  .next ((s.setShell e { s.shellAt e with pending := (s.shellAt e).pending ||| bits }).recompute s.now).ack

end Sys2Proof.Machine
end

