-- ==== Sys2Proof/Machine/Timer.lean ====
section
/-! DEFINITION. The Timer Engine's register accesses, its enable and disable, and the alarm monitor's step (42_timer.md). -/

namespace Sys2Proof.Machine

/-- `RD_TMR_INTR`: the stored field, no `Sync` (42_timer.md R177). -/
def execRdTmrIntr (s : State) : Host.Outcome State Fault Refusal := .next (s.reply s.tmr.pending)

/-- `RD_TMR_INTR_EN` (42_timer.md R178). -/
def execRdTmrIntrEn (s : State) : Host.Outcome State Fault Refusal := .next (s.reply s.tmr.mask)

/-- `RD_TMR_MUL` (42_timer.md R179). -/
def execRdTmrMul (s : State) : Host.Outcome State Fault Refusal := .next (s.reply s.tmr.mul)

/-- `RD_TMR_DIV`: the stored value, 0 included (42_timer.md R180). -/
def execRdTmrDiv (s : State) : Host.Outcome State Fault Refusal := .next (s.reply s.tmr.div)

/-- `RD_TMR_TIME_LO`: `Sync`, then the low half of the count (42_timer.md R181). -/
def execRdTmrTimeLo (s : State) : Host.Outcome State Fault Refusal :=
  .next ((s.sync s.now).reply (timeLoView (s.sync s.now).tmr.ticks))

/-- `RD_TMR_TIME_HI`: `Sync`, then the high half of the count (42_timer.md R182). -/
def execRdTmrTimeHi (s : State) : Host.Outcome State Fault Refusal :=
  .next ((s.sync s.now).reply (timeHiView (s.sync s.now).tmr.ticks))

/-- `RD_TMR_ALARM` (42_timer.md R183). -/
def execRdTmrAlarm (s : State) : Host.Outcome State Fault Refusal := .next (s.reply s.tmr.alarm)

/-- `RD_TMR_OTHER`: zero (42_timer.md R184). -/
def execRdTmrOther (_off : Nat) (s : State) : Host.Outcome State Fault Refusal := .next (s.reply 0)

/-- `WR_TMR_INTR`: write-1-to-clear, then `Recompute`; no `Sync` (42_timer.md R185). -/
def execWrTmrIntr (d : Word) (s : State) : Host.Outcome State Fault Refusal :=
  .next ((s.setPending (clearBits s.tmr.pending d)).recompute s.now).ack

/-- `WR_TMR_INTR_EN`: the mask is replaced whole, then `Recompute`; no `Sync` (42_timer.md R186). -/
def execWrTmrIntrEn (d : Word) (s : State) : Host.Outcome State Fault Refusal :=
  .next ((s.setMask d).recompute s.now).ack

/-- `WR_TMR_MUL`: `Sync` under the old ratio, then store (42_timer.md R187). -/
def execWrTmrMul (d : Word) (s : State) : Host.Outcome State Fault Refusal :=
  .next ((s.sync s.now).setMul d).ack

/-- `WR_TMR_DIV`: `Sync` under the old ratio, then store (42_timer.md R188). -/
def execWrTmrDiv (d : Word) (s : State) : Host.Outcome State Fault Refusal :=
  .next ((s.sync s.now).setDiv d).ack

/-- `WR_TMR_TIME_LO`: `Sync`, then the low 27 bits are replaced (42_timer.md R189). -/
def execWrTmrTimeLo (d : Word) (s : State) : Host.Outcome State Fault Refusal :=
  .next ((s.sync s.now).setTicks (withTimeLo (s.sync s.now).tmr.ticks d)).ack

/-- `WR_TMR_TIME_HI`: `Sync`, then the high 29 bits are replaced (42_timer.md R190). -/
def execWrTmrTimeHi (d : Word) (s : State) : Host.Outcome State Fault Refusal :=
  .next ((s.sync s.now).setTicks (withTimeHi (s.sync s.now).tmr.ticks d)).ack

/-- `WR_TMR_ALARM`: `Sync` against the old alarm value, then store (42_timer.md R191). -/
def execWrTmrAlarm (d : Word) (s : State) : Host.Outcome State Fault Refusal :=
  .next ((s.sync s.now).setAlarm d).ack

/-- `WR_TMR_OTHER`: ignored (42_timer.md R192). -/
def execWrTmrOther (_off : Nat) (_d : Word) (s : State) : Host.Outcome State Fault Refusal := .next s.ack

/-- `TMR_ENABLE`: from Disabled, Enabled with the baseline at this instant; else no effect (42_timer.md R193). -/
def execTmrEnable (s : State) : Host.Outcome State Fault Refusal :=
  if s.tmr.enabled then .next s.ack
  else .next (s.enableAt s.now).ack

/-- `TMR_DISABLE`: from Enabled, the timer's Reset() and `Recompute`, without `Sync`; else no effect (42_timer.md R194). -/
def execTmrDisable (s : State) : Host.Outcome State Fault Refusal :=
  if s.tmr.enabled then .next ((s.resetTimer s.now).recompute s.now).ack
  else .next s.ack

/-- `ALARM_CHECK`: a `Sync`, provided the alarm is due (42_timer.md R200). -/
def execAlarmCheck (s : State) : Host.Outcome State Fault Refusal :=
  if s.alarmDue s.now then .next (s.sync s.now).ack else .refused .alarmNotDue

end Sys2Proof.Machine
end

