-- ==== Sys2Proof/Machine/Dispatch.lean ====
section
/-! DEFINITION. One arm per operation of spec/opcode_table.json, each a direct call of its meaning. -/

namespace Sys2Proof.Machine

/-- One operation performed at the instant `s.now` (00_scope.md R10). -/
def exec (i : Instr) (s : State) : Host.Outcome State Fault Refusal :=
  match i with
  | .rdUnmapped addr => Sys2Proof.Machine.execRdUnmapped addr s
  | .wrUnmapped addr d => Sys2Proof.Machine.execWrUnmapped addr d s
  | .rdClkWord off => Sys2Proof.Machine.execRdClkWord off s
  | .wrClkWord off d => Sys2Proof.Machine.execWrClkWord off d s
  | .rdClkCore => Sys2Proof.Machine.execRdClkCore s
  | .rdClkMem => Sys2Proof.Machine.execRdClkMem s
  | .rdClkVid => Sys2Proof.Machine.execRdClkVid s
  | .wrClkCore d => Sys2Proof.Machine.execWrClkCore d s
  | .wrClkMem d => Sys2Proof.Machine.execWrClkMem d s
  | .wrClkVid d => Sys2Proof.Machine.execWrClkVid d s
  | .rdClkMisaligned off => Sys2Proof.Machine.execRdClkMisaligned off s
  | .wrClkMisaligned off d => Sys2Proof.Machine.execWrClkMisaligned off d s
  | .rdTmrIntr => Sys2Proof.Machine.execRdTmrIntr s
  | .rdTmrIntrEn => Sys2Proof.Machine.execRdTmrIntrEn s
  | .rdTmrMul => Sys2Proof.Machine.execRdTmrMul s
  | .rdTmrDiv => Sys2Proof.Machine.execRdTmrDiv s
  | .rdTmrTimeLo => Sys2Proof.Machine.execRdTmrTimeLo s
  | .rdTmrTimeHi => Sys2Proof.Machine.execRdTmrTimeHi s
  | .rdTmrAlarm => Sys2Proof.Machine.execRdTmrAlarm s
  | .rdTmrOther off => Sys2Proof.Machine.execRdTmrOther off s
  | .wrTmrIntr d => Sys2Proof.Machine.execWrTmrIntr d s
  | .wrTmrIntrEn d => Sys2Proof.Machine.execWrTmrIntrEn d s
  | .wrTmrMul d => Sys2Proof.Machine.execWrTmrMul d s
  | .wrTmrDiv d => Sys2Proof.Machine.execWrTmrDiv d s
  | .wrTmrTimeLo d => Sys2Proof.Machine.execWrTmrTimeLo d s
  | .wrTmrTimeHi d => Sys2Proof.Machine.execWrTmrTimeHi d s
  | .wrTmrAlarm d => Sys2Proof.Machine.execWrTmrAlarm d s
  | .wrTmrOther off d => Sys2Proof.Machine.execWrTmrOther off d s
  | .rdBlkWord e off => Sys2Proof.Machine.execRdBlkWord e off s
  | .wrBlkWord e off d => Sys2Proof.Machine.execWrBlkWord e off d s
  | .rdBlkMisaligned e off => Sys2Proof.Machine.execRdBlkMisaligned e off s
  | .wrBlkMisaligned e off d => Sys2Proof.Machine.execWrBlkMisaligned e off d s
  | .rdShellIntr e => Sys2Proof.Machine.execRdShellIntr e s
  | .rdShellIntrEn e => Sys2Proof.Machine.execRdShellIntrEn e s
  | .wrShellIntr e d => Sys2Proof.Machine.execWrShellIntr e d s
  | .wrShellIntrEn e d => Sys2Proof.Machine.execWrShellIntrEn e d s
  | .rdShellOther e off => Sys2Proof.Machine.execRdShellOther e off s
  | .wrShellOther e off d => Sys2Proof.Machine.execWrShellOther e off d s
  | .reset => Sys2Proof.Machine.execReset s
  | .tmrEnable => Sys2Proof.Machine.execTmrEnable s
  | .tmrDisable => Sys2Proof.Machine.execTmrDisable s
  | .hwEvent e bits => Sys2Proof.Machine.execHwEvent e bits s
  | .alarmCheck => Sys2Proof.Machine.execAlarmCheck s

end Sys2Proof.Machine
end

