-- ==== Sys2Proof/Machine/Schedule.lean ====
section
/-! DEFINITION. What a step performs: a request of the port, or the alarm monitor's own step and its window (00_scope.md
R10, R11, 42_timer.md R201). -/

namespace Sys2Proof.Machine

/-- The state in which a request is performed: its instant is now, and it is taken off the port. -/
def State.begin (s : State) (r : Request) (rest : List Request) : State := { s with now := r.instant, port := rest }

/-- The latest instant of the monitor's own step for the deadline `d`: `d + ALARM_LATENCY` (42_timer.md R201). Where
that instant was already over when the deadline arose (a write of CLK_CORE can move it there), the latency counts from the
instant at which the deadline arose, and no later operation that leaves the deadline restarts it. R201 does not foresee
this case: DESIGN CHOICE, log 17. -/
def State.latestCheck (s : State) (d : Nat) : Nat :=
  if s.deadlineSince ≤ d + s.cfg.alarmLatency then d + s.cfg.alarmLatency
  else s.deadlineSince + s.cfg.alarmLatency

/-- The instant of the monitor's own step: the earliest instant at which it can act, the deadline `d` or now, and a free
delay that stays within the latest one (42_timer.md R201; DESIGN CHOICE, log 8). -/
def State.monitorInstant (s : State) (d : Nat) : Nat :=
  max d s.now + Config.monitorLag s.draws % (s.latestCheck d - max d s.now + 1)

/-- The state in which the monitor steps by itself at instant `m`: one more free instant has been drawn. -/
def State.monitorAt (s : State) (m : Nat) : State := { s with now := m, draws := s.draws + 1 }

/-- The state `t` after a step from `s`, with the instant from which its deadline has stood: as before where the deadline
is that of `s`, else the instant of `t` (DESIGN CHOICE, log 8). -/
def State.tracked (t s : State) : State :=
  { t with deadlineSince := if t.deadline = s.deadline then s.deadlineSince else t.now }

/-- Keep the deadline's instant through what an operation performed from `s` answers. -/
def State.track (s : State) (o : Host.Outcome State Fault Refusal) : Host.Outcome State Fault Refusal :=
  match o with
  | .next t => .next (t.tracked s)
  | .fault f => .fault f
  | .refused r => .refused r

/-- The monitor steps by itself (42_timer.md R200, R201). -/
def State.monitorStep (s : State) (d : Nat) : Host.Outcome State Fault Refusal :=
  s.track (exec .alarmCheck (s.monitorAt (s.monitorInstant d)))

/-- Whether an operation at instant `t` would come after the latest instant of the monitor's step, which no run of the
block passes (42_timer.md R201; DESIGN CHOICE, log 8). -/
def State.overdue (s : State) (d t : Nat) : Bool := decide (s.latestCheck d < t)

/-- Decode a request and perform it (00_scope.md R10). -/
def State.perform (s : State) (r : Request) (rest : List Request) : Host.Outcome State Fault Refusal :=
  match decode s.cfg r.packet with
  | .ok i => s.track (exec i (s.begin r rest))
  | .error e => .refused (.badPacket e)

end Sys2Proof.Machine
end

