-- ==== Sys2Proof/Machine/Step.lean ====
section
/-! DEFINITION. One step of the machine: the next operation of the total order, or the alarm monitor's own step where the
run may not pass its latest instant (00_scope.md R10, R11, 42_timer.md R201). -/

namespace Sys2Proof.Machine

/-- One step. With nothing on the port the monitor acts at its deadline, and where there is none the block waits
(70_reset_and_hazards.md R270). -/
def step (s : State) : Host.Outcome State Fault Refusal :=
  if s.cfg.wf = false then .refused .illFormedCfg
  else match s.port, s.deadline with
    | [], none => .next s
    | [], some d => s.monitorStep d
    | r :: rest, none => if r.instant < s.now then .refused .clockBackward else s.perform r rest
    | r :: rest, some d =>
      if r.instant < s.now then .refused .clockBackward
      else if s.overdue d r.instant then s.monitorStep d
      else s.perform r rest

/-- The transaction with bits `w mod 2^nbits` put at the head of the port at the present instant, so that the next step
performs it (DESIGN CHOICE, log 2, log 11). -/
def State.withFetchWord (s : State) (nbits w : Nat) : State :=
  { s with port := { instant := s.now, packet := packetOfBits (w % 2 ^ nbits) } :: s.port }

end Sys2Proof.Machine
end

