-- ==== Sys2Proof/Safety.lean ====
section
/-! DEFINITION. What every reachable state satisfies (10_state.md R43, 40_dispatcher.md R130), the canonical form of the
stores, and the runs of `Sync` that the properties of the counter speak of (42_timer.md R202, R203). -/

namespace Sys2Proof.Machine

/-- The canonical form of a sparse array: indices strictly rising, no entry equal to the default (DESIGN CHOICE, log
5). -/
def Store.wf {α : Type} [DecidableEq α] (d : α) (m : Store α) : Bool :=
  decide (m.Pairwise fun p q => p.1 < q.1) && m.all fun p => decide (p.2 ≠ d)

/-- The canonical form of a pass-through memory: its unlisted words read 0. -/
def Memory.wf (m : Memory) : Bool := Store.wf 0 m

/-- Every listed index of a sparse array satisfies `p`. -/
def Store.within {α : Type} (p : Nat → Bool) (m : Store α) : Bool := m.all fun q => p q.1

/-- The level after a sequence of `Notify` events that starts from level `l`, if every event changes the level. -/
def lineAfter (l : Bool) : List Event → Option Bool
  | [] => some l
  | .notify b _ :: es => if b = l then none else lineAfter b es

/-- The instant an event carries. -/
def Event.instant : Event → Nat
  | .notify _ t => t

/-- Every store of the state is in canonical form. -/
def State.storesWf (s : State) : Bool :=
  s.clk.word.wf && Store.wf { pending := 0, mask := 0 } s.shell && Store.wf [] s.blk && s.blk.all fun p => Memory.wf p.2

/-- The clock generator's words lie inside its window, and only engines of the right kind have shell or block state. -/
def State.storesInWindows (s : State) : Bool :=
  Store.within (fun i => s.cfg.holdsFirst .clkGen fun en => decide (i < en.size / 4)) s.clk.word &&
  Store.within (fun e => s.cfg.holdsAt e .intrShell fun _ => true) s.shell &&
  s.blk.all fun p => s.cfg.holdsAt p.1 .regBlock fun en => Store.within (fun i => decide (i < en.size / 4)) p.2

/-- Now is not past the latest instant of the monitor's step, where a deadline exists (42_timer.md R201; where R201 does not
foresee the case, log 17). -/
def State.monitorInTime (s : State) : Bool :=
  match s.deadline with
  | some d => decide (s.now ≤ s.latestCheck d)
  | none => true

/-- The invariant of the block: 10_state.md R43 (b) to (e) ((a) is the width of the field), the canonical form of the
stores, the alternation of the `Notify` events (40_dispatcher.md R130), and the bound of R201. -/
structure State.Inv (s : State) : Prop where
  /-- The configuration is well formed (00_scope.md R8). -/
  cfgWf : s.cfg.wf = true
  /-- The line is the aggregate (R43 (b), 40_dispatcher.md R132). -/
  lineIsAggregate : s.disp.irqLine = s.aggregate
  /-- No pending bit but the alarm bit is ever set in the timer (R43 (c)). -/
  pendingOnlyAlarm : s.tmr.pending &&& ~~~ alarmMask s.cfg = 0
  /-- While Disabled nothing is pending in the timer (R43 (d)). -/
  disabledNoPending : s.tmr.enabled = false → s.tmr.pending = 0
  /-- The baseline is not after the instant of the latest operation (R43 (e)). -/
  baselineNotAfterNow : s.tmr.baseline ≤ s.now
  /-- The stores are in canonical form (DESIGN CHOICE, log 5). -/
  storesWf : s.storesWf = true
  /-- Only words and engines of the configuration have storage (10_state.md R26, R39, R40). -/
  storesInWindows : s.storesInWindows = true
  /-- The `Notify` events alternate in level, the first is `Notify(true)`, and the last is the line's level (R130). -/
  notifiesAlternate : lineAfter false s.trace = some s.disp.irqLine
  /-- The events are in the order of their instants, none after the latest operation (00_scope.md R11). -/
  traceInOrder : (s.trace.map Event.instant).Pairwise (· ≤ ·) ∧ ∀ e ∈ s.trace, e.instant ≤ s.now
  /-- The run has not passed the monitor's latest instant (42_timer.md R201; log 8, log 17). -/
  monitorInTime : s.monitorInTime = true

/-- The state after `Sync` at each instant of a list, in order (42_timer.md R202, R203). -/
def State.syncAll (s : State) : List Nat → State
  | [] => s
  | t :: ts => (s.sync t).syncAll ts

/-- The ticks that those invocations of `Sync` add, before reduction modulo 2^56 (42_timer.md R203). -/
def State.ticksAdded (s : State) : List Nat → Nat
  | [] => 0
  | t :: ts => s.delta t + (s.sync t).ticksAdded ts

/-- `floor(r * (t - t0) / TU)`, the ideal count of elapsed ticks at the state's rate (42_timer.md R203). -/
def State.idealTicks (s : State) (t0 t : Nat) : Nat := (t - t0) * s.rateNum / (s.cfg.tu * s.rateDen)

/-- A packet that is an MMIO transaction (30_encoding.md R90); the others are environment operations (R91) or nothing.
-/
def isMmioPacket (p : Packet) : Bool := decide (p.ctl = tagRead) || decide (p.ctl = tagWrite)

/-- What `Recompute(now)` leaves in `t` of the line and the trace of `s`: the line is the aggregate of `t`, and one
event is appended if and only if the line changed (40_dispatcher.md R130). -/
def LineRecomputed (s : State) (now : Nat) (t : State) : Prop :=
  t.disp.irqLine = t.aggregate ∧
  t.trace = if t.aggregate = s.disp.irqLine then s.trace else s.trace ++ [.notify t.aggregate now]

/-- The line and the trace are as they were. -/
def LineKept (s t : State) : Prop := t.disp = s.disp ∧ t.trace = s.trace

/-- The fields that no operation changes, only the step around it: the configuration, the clock, the port, the draws, the
instant of the deadline. -/
def SameFrame (s t : State) : Prop :=
  t.cfg = s.cfg ∧ t.now = s.now ∧ t.port = s.port ∧ t.draws = s.draws ∧ t.deadlineSince = s.deadlineSince

/-- Every word of pass-through storage is as it was. -/
def SameStorage (s t : State) : Prop := t.clk = s.clk ∧ t.blk = s.blk

end Sys2Proof.Machine
end

