-- ==== Sys2Proof/Certificates/Slice0/Obligations.lean ====
section
/-! DEFINITION. The statements for the provers, from the numbered rules of spec/. -/

namespace Sys2Proof

open Sys2Proof.Machine

/-- One MMIO row of spec/opcode_table.json: its `match`, `mask` and `priority` for REFCFG (30_encoding.md R104). -/
structure TableRow where
  mnemonic : String
  pattern : Word
  mask : Word
  priority : Nat
deriving DecidableEq, Repr

/-- The rows with `we` = 0, without the prefix `RD_` (spec/opcode_table.json). The rows with `we` = 1 have the same
patterns, masks and priorities. -/
def tableRows : List TableRow :=
  [ ⟨"UNMAPPED", 0x00000000, 0x00000000, 0⟩,
    ⟨"CLK_WORD", 0x00680000, 0xFFFFF003, 2⟩,
    ⟨"CLK_CORE", 0x00680500, 0xFFFFFFFF, 3⟩,
    ⟨"CLK_MEM", 0x00680504, 0xFFFFFFFF, 3⟩,
    ⟨"CLK_VID", 0x00680508, 0xFFFFFFFF, 3⟩,
    ⟨"CLK_MISALIGNED", 0x00680000, 0xFFFFF000, 1⟩,
    ⟨"TMR_INTR", 0x00009100, 0xFFFFFFFF, 3⟩,
    ⟨"TMR_INTR_EN", 0x00009140, 0xFFFFFFFF, 3⟩,
    ⟨"TMR_MUL", 0x00009200, 0xFFFFFFFF, 3⟩,
    ⟨"TMR_DIV", 0x00009210, 0xFFFFFFFF, 3⟩,
    ⟨"TMR_TIME_LO", 0x00009400, 0xFFFFFFFF, 3⟩,
    ⟨"TMR_TIME_HI", 0x00009410, 0xFFFFFFFF, 3⟩,
    ⟨"TMR_ALARM", 0x00009420, 0xFFFFFFFF, 3⟩,
    ⟨"TMR_OTHER", 0x00009000, 0xFFFFF000, 1⟩,
    ⟨"BLK_WORD", 0x00101000, 0xFFFFF003, 2⟩,
    ⟨"BLK_MISALIGNED", 0x00101000, 0xFFFFF000, 1⟩,
    ⟨"SHELL_INTR", 0x00002100, 0xFFFFFFFF, 3⟩,
    ⟨"SHELL_INTR_EN", 0x00002140, 0xFFFFFFFF, 3⟩,
    ⟨"SHELL_OTHER", 0x00002000, 0xFFFFE000, 1⟩ ]

/-- A row matches an address when `(addr & mask) = match` (30_encoding.md R104). -/
def TableRow.selects (r : TableRow) (addr : Word) : Bool := decide (addr &&& r.mask = r.pattern)

/-- The row of an MMIO operation, its mnemonic without the direction; `none` for an environment operation. -/
def Instr.rowName : Instr → Option String
  | .rdUnmapped _ => some "UNMAPPED"
  | .wrUnmapped _ _ => some "UNMAPPED"
  | .rdClkWord _ => some "CLK_WORD"
  | .wrClkWord _ _ => some "CLK_WORD"
  | .rdClkCore => some "CLK_CORE"
  | .rdClkMem => some "CLK_MEM"
  | .rdClkVid => some "CLK_VID"
  | .wrClkCore _ => some "CLK_CORE"
  | .wrClkMem _ => some "CLK_MEM"
  | .wrClkVid _ => some "CLK_VID"
  | .rdClkMisaligned _ => some "CLK_MISALIGNED"
  | .wrClkMisaligned _ _ => some "CLK_MISALIGNED"
  | .rdTmrIntr => some "TMR_INTR"
  | .rdTmrIntrEn => some "TMR_INTR_EN"
  | .rdTmrMul => some "TMR_MUL"
  | .rdTmrDiv => some "TMR_DIV"
  | .rdTmrTimeLo => some "TMR_TIME_LO"
  | .rdTmrTimeHi => some "TMR_TIME_HI"
  | .rdTmrAlarm => some "TMR_ALARM"
  | .rdTmrOther _ => some "TMR_OTHER"
  | .wrTmrIntr _ => some "TMR_INTR"
  | .wrTmrIntrEn _ => some "TMR_INTR_EN"
  | .wrTmrMul _ => some "TMR_MUL"
  | .wrTmrDiv _ => some "TMR_DIV"
  | .wrTmrTimeLo _ => some "TMR_TIME_LO"
  | .wrTmrTimeHi _ => some "TMR_TIME_HI"
  | .wrTmrAlarm _ => some "TMR_ALARM"
  | .wrTmrOther _ _ => some "TMR_OTHER"
  | .rdBlkWord _ _ => some "BLK_WORD"
  | .wrBlkWord _ _ _ => some "BLK_WORD"
  | .rdBlkMisaligned _ _ => some "BLK_MISALIGNED"
  | .wrBlkMisaligned _ _ _ => some "BLK_MISALIGNED"
  | .rdShellIntr _ => some "SHELL_INTR"
  | .rdShellIntrEn _ => some "SHELL_INTR_EN"
  | .wrShellIntr _ _ => some "SHELL_INTR"
  | .wrShellIntrEn _ _ => some "SHELL_INTR_EN"
  | .rdShellOther _ _ => some "SHELL_OTHER"
  | .wrShellOther _ _ _ => some "SHELL_OTHER"
  | .reset => none
  | .tmrEnable => none
  | .tmrDisable => none
  | .hwEvent _ _ => none
  | .alarmCheck => none

end Sys2Proof

open Sys2Proof Sys2Proof.Machine

/-! Routing, decode, step. -/

/-- 20_memory.md R68, 40_dispatcher.md R121: an address is routed to an engine if and only if it lies in its window,
with the offset from its base; it is unmapped if and only if no window holds it. -/
def Obligations.RouteIsRangeContainment : Prop :=
  ∀ (c : Cfg) (addr : Word), c.wf = true →
    (∀ r : Routed, route c addr = some r ↔
      c.engineAt r.id = some r.engine ∧ r.engine.base ≤ addr.toNat ∧ addr.toNat < r.engine.base + r.engine.size ∧
        r.off = addr.toNat - r.engine.base) ∧
    (route c addr = none ↔ ∀ e en, c.engineAt e = some en →
      ¬ (en.base ≤ addr.toNat ∧ addr.toNat < en.base + en.size))

/-- 30_encoding.md R93: the decoder reads back every operation the encoder writes, with every operand at every value a
transaction can carry, under every well-formed configuration. -/
def Obligations.DecodeReadsBackEveryEncoding : Prop :=
  ∀ (c : Cfg) (i : Instr), c.wf = true → i.wf c = true → decode c (encode c i) = .ok i

/-- Each transaction has one meaning: what the decoder accepts is well formed and encodes to the same transaction (a
read's absent `wdata` apart, 30_encoding.md R90). -/
def Obligations.EncodeReadsBackEveryDecoding : Prop :=
  ∀ (c : Cfg) (p : Packet) (i : Instr), c.wf = true → decode c p = .ok i → i.wf c = true ∧ encode c i = p.canonical

/-- 30_encoding.md R100: no MMIO transaction is illegal. -/
def Obligations.EveryMmioTransactionDecodes : Prop :=
  ∀ (c : Cfg) (p : Packet), c.wf = true → isMmioPacket p = true →
    ∃ i, decode c p = .ok i ∧ i.wf c = true ∧ i.rowName ≠ none

/-- The spec's own inference (30_encoding.md R104, "[derived: from rules R92, R93]") for the numbers of REFCFG
(PRESUMED, log 12): under REFCFG the decoder picks, among the rows of the opcode table that match the address, the one
with the highest priority. -/
def Obligations.DecodeFollowsTheOpcodeTable : Prop :=
  ∀ (p : Packet) (i : Instr), isMmioPacket p = true → decode refCfg p = .ok i →
    ∃ r ∈ tableRows, i.rowName = some r.mnemonic ∧ r.selects p.addr = true ∧
      ∀ q ∈ tableRows, q.selects p.addr = true → q ≠ r → q.priority < r.priority

/-- A few transactions written out from the tables of 10_state.md R24 (REFCFG's numbers: PRESUMED, log 12) decode to
the operations they stand for, a 32-bit table word being taken as a read (the model's choice, log 11). -/
def Obligations.ReferenceTransactionsDecode : Prop :=
  decodeTableWord 32 0x00680500 = some .rdClkCore ∧
  decodeTableWord 32 0x00009420 = some .rdTmrAlarm ∧
  decodeTableWord 32 0x00002140 = some (.rdShellIntrEn 0) ∧
  decodeTableWord 32 0x00101FFF = some (.rdBlkMisaligned 2 0xFFF) ∧
  decodeTableWord 32 0x00004000 = some (.rdUnmapped 0x00004000) ∧
  decode refCfg { addr := 0x00009200, wdata := 7, ctl := 1 } = .ok (.wrTmrMul 7)

/-- The model's choice of an input form (log 2). The next step performs the operation at the head of the port, in
order of instants: where the monitor is not overdue and the transaction decodes to `i`, the step is `exec i` at the
request's instant with the request taken off the port, with the instant from which the deadline has stood kept beside
it (log 8): as before where the deadline is as before, else the instant of the step. -/
def Obligations.StepPerformsTheDecodedOperation : Prop :=
  ∀ (s : State) (r : Request) (rest : List Request) (i : Instr),
    s.cfg.wf = true → s.port = r :: rest → s.now ≤ r.instant →
    (∀ d, s.deadline = some d → r.instant ≤ s.latestCheck d) →
    decode s.cfg r.packet = .ok i →
    (∀ t, exec i { s with now := r.instant, port := rest } = .next t →
      step s = .next { t with deadlineSince := if t.deadline = s.deadline then s.deadlineSince else t.now }) ∧
    (∀ why, exec i { s with now := r.instant, port := rest } = .refused why → step s = .refused why)

/-- 00_scope.md R8, R11: what has no step. An ill-formed configuration is refused; so is an operation whose instant is
before the previous operation's. -/
def Obligations.StepRefusesWhatIsNoRun : Prop :=
  (∀ s : State, s.cfg.wf = false → step s = .refused .illFormedCfg) ∧
  (∀ (s : State) (r : Request) (rest : List Request), s.cfg.wf = true → s.port = r :: rest → r.instant < s.now →
    step s = .refused .clockBackward)

/-- 00_scope.md R11, R7: along a run the instants do not decrease and the configuration does not change. -/
def Obligations.InstantsNeverDecreaseAndCfgIsConstant : Prop :=
  ∀ s t : State, step s = .next t → s.now ≤ t.now ∧ t.cfg = s.cfg

/-- 60_exceptions.md R240, 30_encoding.md R100: every MMIO request that is in order and not past the monitor's latest
instant has a next state. -/
def Obligations.EveryMmioRequestCompletes : Prop :=
  ∀ (s : State) (r : Request) (rest : List Request),
    s.cfg.wf = true → s.port = r :: rest → isMmioPacket r.packet = true → s.now ≤ r.instant →
    (∀ d, s.deadline = some d → r.instant ≤ s.latestCheck d) →
    ∃ t, step s = .next t ∧ t.now = r.instant ∧ t.port = rest

/-- The model's choice of a schedule for the monitor of 42_timer.md R201 (log 8, log 17): where a deadline `d` exists
and no operation comes by its latest instant, the step is the monitor's, at an instant not before `d` or now and not
after the latest one, and it sets the alarm bit. The latest instant is `d + ALARM_LATENCY`; where that was over when
the deadline arose, ALARM_LATENCY after the deadline arose. -/
def Obligations.MonitorFiresWithinItsWindow : Prop :=
  ∀ (s : State) (d : Nat), s.cfg.wf = true → s.deadline = some d →
    (s.deadlineSince ≤ d + s.cfg.alarmLatency → s.latestCheck d = d + s.cfg.alarmLatency) ∧
    (d + s.cfg.alarmLatency < s.deadlineSince → s.latestCheck d = s.deadlineSince + s.cfg.alarmLatency) ∧
    ((s.port = [] ∨ ∃ r rest, s.port = r :: rest ∧ s.now ≤ r.instant ∧ s.latestCheck d < r.instant) →
      ∃ t, step s = .next t ∧ d ≤ t.now ∧ s.now ≤ t.now ∧ t.now ≤ max s.now (s.latestCheck d) ∧
        t.tmr.pending.getLsbD s.cfg.tmrAlarmBit = true ∧ t.tmr.baseline = t.now ∧ t.port = s.port)

/-- The model's reading of 42_timer.md R201, "with `S` unchanged" (log 8, log 17): a step that leaves the deadline as
it is, such as a read of TMR_INTR however often it is repeated, does not move the latest instant of the monitor's
step. -/
def Obligations.PollingDoesNotDelayTheMonitor : Prop :=
  ∀ (s t : State) (d : Nat), step s = .next t → s.deadline = some d → t.deadline = some d →
    t.latestCheck d = s.latestCheck d ∧ (s.now ≤ s.latestCheck d → t.now ≤ s.latestCheck d)

/-- The model's choice (log 2, log 8): with nothing on the port and no deadline the block waits; its state does not
change. -/
def Obligations.IdleBlockKeepsItsState : Prop :=
  ∀ s : State, s.cfg.wf = true → s.port = [] → s.deadline = none → step s = .next s

/-! Reset. -/

/-- 10_state.md R50: the power-on defaults after construction, after `RESET`, and in the timer after `TMR_DISABLE`
from Enabled. -/
def Obligations.PowerOnDefaults : Prop :=
  (∀ (c : Cfg) (now : Nat), (State.powerOn c now).tmr = ⟨false, 0, 0, 0, 0, 0, 0, now⟩ ∧
    (State.powerOn c now).disp.irqLine = false ∧ (State.powerOn c now).trace = [] ∧
    (∀ i, (State.powerOn c now).clk.word.read i = 0) ∧ (∀ e, (State.powerOn c now).shellAt e = ⟨0, 0⟩) ∧
    ∀ e i, ((State.powerOn c now).blkAt e).read i = 0) ∧
  (∀ s : State, ∃ t, exec .reset s = .next t ∧ t.tmr = ⟨false, 0, 0, 0, 0, 0, 0, s.now⟩ ∧ t.disp.irqLine = false ∧
    (∃ es, t.trace = s.trace ++ es) ∧ (∀ i, t.clk.word.read i = 0) ∧ (∀ e, t.shellAt e = ⟨0, 0⟩) ∧
    ∀ e i, (t.blkAt e).read i = 0) ∧
  (∀ s : State, s.tmr.enabled = true →
    ∃ t, exec .tmrDisable s = .next t ∧ t.tmr = ⟨false, 0, 0, 0, 0, 0, 0, s.now⟩)

/-- The spec's own inference from 10_state.md R50 (R51, "Consequence of rule R50 for the derived values at reset"):
the derived values at power-on and after `RESET`. -/
def Obligations.DerivedValuesAtReset : Prop :=
  ∀ t : State, ((∃ c now, t = State.powerOn c now) ∨ ∃ s, exec .reset s = .next t) →
    t.coreFreq = 0 ∧ t.memFreq = 0 ∧ t.vidFreq = 0 ∧ t.rateNum = 0 ∧ t.aggregate = false ∧
    (∃ u, exec .rdTmrTimeLo t = .next u ∧ u.rdata = some 0) ∧ ∃ u, exec .rdTmrTimeHi t = .next u ∧ u.rdata = some 0

/-- The state after reset satisfies the invariant of every reachable state (the spec's own inference of 10_state.md
R43, "[derived: from the rules named]", and log 5). -/
def Obligations.InvariantHoldsAtReset : Prop := State.reset.Inv

/-- 40_dispatcher.md R133: `RESET` resets every engine and withdraws the request, announcing it once if it was
asserted; the engines are as after power-on. -/
def Obligations.ResetClearsEveryEngine : Prop :=
  ∀ s : State, ∃ t, exec .reset s = .next t ∧
    t.clk.word = [] ∧ t.blk = [] ∧ t.shell = [] ∧ t.tmr = ⟨false, 0, 0, 0, 0, 0, 0, s.now⟩ ∧
    t.disp.irqLine = false ∧ t.trace = (if s.disp.irqLine then s.trace ++ [.notify false s.now] else s.trace) ∧
    t.rdata = none ∧ SameFrame s t ∧
    { t with trace := [], port := [], draws := 0, deadlineSince := s.now } = State.powerOn s.cfg s.now

/-! The dispatcher. -/

/-- 40_dispatcher.md R124, R125: an unmapped read returns exactly zero, an unmapped write changes nothing. -/
def Obligations.UnmappedAccessesHaveNoEffect : Prop :=
  ∀ (addr d : Word) (s : State),
    exec (.rdUnmapped addr) s = .next { s with rdata := some 0 } ∧
    exec (.wrUnmapped addr d) s = .next { s with rdata := none }

/-- 20_memory.md R63: a misaligned access, wherever it is routed, reads zero, is ignored as a write, and changes
nothing. -/
def Obligations.MisalignedAccessesHaveNoEffect : Prop :=
  ∀ (s : State) (p : Packet), s.cfg.wf = true → isMmioPacket p = true → p.addr.toNat % 4 ≠ 0 →
    ∃ i, decode s.cfg p = .ok i ∧ exec i s = .next { s with rdata := if p.ctl = tagRead then some 0 else none }

/-- 40_dispatcher.md R128, R129: an engine asserts if and only if `(pending & mask) != 0`, and the aggregate is the OR
over the interrupt-bearing engines. -/
def Obligations.AggregateIsTheOrOverEngines : Prop :=
  ∀ s : State,
    (∀ e en, en.kind = .timer → (s.asserting en e = true ↔ s.tmr.pending &&& s.tmr.mask ≠ 0)) ∧
    (∀ e en, en.kind = .intrShell →
      (s.asserting en e = true ↔ (s.shellAt e).pending &&& (s.shellAt e).mask ≠ 0)) ∧
    (s.aggregate = true ↔ ∃ e en, s.cfg.engineAt e = some en ∧ (en.kind = .timer ∨ en.kind = .intrShell) ∧
      s.asserting en e = true)

/-- 40_dispatcher.md R130: `Recompute` drives the line to the aggregate, emits one event exactly when the line
changes, writes nothing else, and is idempotent; and, the spec's own inference there ("Consequence: in `S.trace` the
`Notify` events alternate in level, and the first one is `Notify(true, ...)` [derived: from `10_state.md` rule R50,
... and from this rule]"), it keeps the events alternating in level from `Notify(true)` on. -/
def Obligations.RecomputeNotifiesOncePerTransition : Prop :=
  ∀ (s : State) (now later : Nat),
    s.recompute now = { s with
      disp := { irqLine := s.aggregate }
      trace := if s.aggregate = s.disp.irqLine then s.trace else s.trace ++ [.notify s.aggregate now] } ∧
    (s.recompute now).recompute later = s.recompute now ∧
    (lineAfter false s.trace = some s.disp.irqLine →
      lineAfter false (s.recompute now).trace = some (s.recompute now).disp.irqLine)

/-- The spec's own inference (40_dispatcher.md R132, "[derived: from rule R131 and the rules it names]"): every
operation that starts with the line equal to the aggregate ends so, and emits at most one `Notify`, exactly when the
line changes. -/
def Obligations.EveryOperationNotifiesAtMostOnce : Prop :=
  ∀ (i : Instr) (s t : State), s.disp.irqLine = s.aggregate → exec i s = .next t →
    t.disp.irqLine = t.aggregate ∧
    ((t.disp.irqLine = s.disp.irqLine ∧ t.trace = s.trace) ∨
     (t.disp.irqLine ≠ s.disp.irqLine ∧ t.trace = s.trace ++ [.notify t.disp.irqLine s.now]))

/-- 60_exceptions.md R251: no register access enables or disables the timer. -/
def Obligations.MmioNeverEnablesOrDisablesTheTimer : Prop :=
  ∀ (s t : State) (p : Packet) (i : Instr), isMmioPacket p = true → decode s.cfg p = .ok i → exec i s = .next t →
    t.tmr.enabled = s.tmr.enabled

/-- Every step keeps the invariant of the block: the line is the aggregate, only the alarm bit is ever pending in the
timer and nothing while it is Disabled, the baseline is not in the future, the stores are canonical and inside their
windows, and the `Notify` events alternate (the spec's own inference of 10_state.md R43, "[derived: from the rules
named]"; log 5); and the run has not passed the monitor's latest instant (42_timer.md R201, scheduled as log 8 and log
17 say). -/
def Obligations.EveryStepKeepsTheInvariant : Prop :=
  ∀ s t : State, s.Inv → step s = .next t → t.Inv

/-! The clock generator. -/

/-- 41_clockgen.md R155, R158: the frequency of a coefficient word, by its bit positions; M = 0 counts as 1; the
range. -/
def Obligations.PllFreqIsTheFormula : Prop :=
  ∀ (c : Cfg) (w : Word),
    pllFreq c w = c.fRef * (w.toNat / 2 ^ 8 % 2 ^ 8) /
      ((if w.toNat % 2 ^ 8 = 0 then 1 else w.toNat % 2 ^ 8) * 2 ^ (w.toNat / 2 ^ 16 % 2 ^ 3)) ∧
    pllFreq c w ≤ 255 * c.fRef

/-- 41_clockgen.md R151: a read of a word of the clock generator returns it as stored and changes nothing; at power-on
every word reads zero. -/
def Obligations.ClkReadsReturnTheStoredWord : Prop :=
  (∀ (s : State) (off : Nat),
    exec (.rdClkWord off) s = .next { s with rdata := some (s.clk.word.read (off / 4)) } ∧
    exec .rdClkCore s = .next { s with rdata := some (s.clk.word.read (s.cfg.clkCoreOff / 4)) } ∧
    exec .rdClkMem s = .next { s with rdata := some (s.clk.word.read (s.cfg.clkMemOff / 4)) } ∧
    exec .rdClkVid s = .next { s with rdata := some (s.clk.word.read (s.cfg.clkVidOff / 4)) }) ∧
  ∀ (c : Cfg) (now i : Nat), (State.powerOn c now).clk.word.read i = 0

/-- 41_clockgen.md R152: a write of a word of the clock generator stores it whole, leaves every other word, and
changes nothing else. -/
def Obligations.ClkWritesStoreOneWord : Prop :=
  ∀ (s : State) (off : Nat) (d : Word) (i : Instr), s.clk.word.wf = true →
    (i = .wrClkWord off d ∨ (i = .wrClkCore d ∧ off = s.cfg.clkCoreOff) ∨ (i = .wrClkMem d ∧ off = s.cfg.clkMemOff) ∨
      (i = .wrClkVid d ∧ off = s.cfg.clkVidOff)) →
    ∃ t, exec i s = .next t ∧ t.clk.word.read (off / 4) = d ∧
      (∀ j, j ≠ off / 4 → t.clk.word.read j = s.clk.word.read j) ∧ t = { s with clk := t.clk, rdata := none }

/-- 41_clockgen.md R153: a misaligned access of the clock generator's window. -/
def Obligations.ClkMisalignedAccessesHaveNoEffect : Prop :=
  ∀ (s : State) (off : Nat) (d : Word),
    exec (.rdClkMisaligned off) s = .next { s with rdata := some 0 } ∧
    exec (.wrClkMisaligned off d) s = .next { s with rdata := none }

/-- 41_clockgen.md R156, R157: a write of one coefficient word changes its own frequency at once and no other. -/
def Obligations.CoefficientWritesChangeOneFrequency : Prop :=
  ∀ (s : State) (d : Word), s.cfg.wf = true → s.clk.word.wf = true →
    (∃ t, exec (.wrClkCore d) s = .next t ∧ t.coreFreq = pllFreq s.cfg d ∧ t.memFreq = s.memFreq ∧ t.vidFreq = s.vidFreq) ∧
    (∃ t, exec (.wrClkMem d) s = .next t ∧ t.coreFreq = s.coreFreq ∧ t.memFreq = pllFreq s.cfg d ∧ t.vidFreq = s.vidFreq) ∧
    (∃ t, exec (.wrClkVid d) s = .next t ∧ t.coreFreq = s.coreFreq ∧ t.memFreq = s.memFreq ∧ t.vidFreq = pllFreq s.cfg d)

/-- 70_reset_and_hazards.md R282: after a write of CLK_CORE the whole interval since the baseline is integrated at the
new frequency. -/
def Obligations.CoreClockWriteAppliesToTheWholeInterval : Prop :=
  ∀ (s : State) (d : Word), s.clk.word.wf = true → s.tmr.enabled = true →
    ∃ t, exec (.wrClkCore d) s = .next t ∧ t.tmr = s.tmr ∧
      ∀ later, t.delta later = (later - s.tmr.baseline) * (pllFreq s.cfg d * s.tmr.mul.toNat) / (s.cfg.tu * s.rateDen)

/-! The timer: the count and the alarm. -/

/-- 42_timer.md R171 to R173: the whole ticks since the baseline, one floor, a zero divisor counting as 1; nothing
while Disabled; non-decreasing in time. -/
def Obligations.DeltaIsTheScaledElapsedTime : Prop :=
  ∀ (s : State) (now later : Nat),
    s.delta now = (if s.tmr.enabled then
      (now - s.tmr.baseline) * (s.coreFreq * s.tmr.mul.toNat) /
        (s.cfg.tu * (if s.tmr.div = 0 then 1 else s.tmr.div.toNat)) else 0) ∧
    (now ≤ later → s.delta now ≤ s.delta later)

/-- 42_timer.md R174: the alarm is crossed if and only if one of the increments takes the counter to its value. -/
def Obligations.CrossingMeansAnIncrementHitsTheAlarm : Prop :=
  ∀ (old : Ticks) (delta : Nat) (alarm : Word),
    crosses old delta alarm = true ↔ ∃ k : Nat, old.toNat < k ∧ k ≤ old.toNat + delta ∧ k % 2 ^ 56 = alarm.toNat

/-- The spec's own inference (42_timer.md R175, "[derived: from rules R173, R174]"): `AlarmDue` is monotone in time;
`Deadline` is the least instant, not before the baseline, at which it holds, it is the formula with its ceiling, and
there is none exactly when `AlarmDue` never holds. -/
def Obligations.DeadlineIsTheLeastDueInstant : Prop :=
  ∀ s : State, s.cfg.wf = true →
    (∀ t, s.alarmDue t = true ↔ s.tmr.enabled = true ∧ crosses s.tmr.ticks (s.delta t) s.tmr.alarm = true) ∧
    (∀ t u, t ≤ u → s.alarmDue t = true → s.alarmDue u = true) ∧
    (∀ d, s.deadline = some d ↔ s.tmr.baseline ≤ d ∧ s.alarmDue d = true ∧ ∀ t, s.alarmDue t = true → d ≤ t) ∧
    (∀ d, s.deadline = some d ↔ s.tmr.enabled = true ∧ s.rateNum ≠ 0 ∧ ∃ q, d = s.tmr.baseline + q ∧
      ∀ x, q ≤ x ↔ alarmDist s.tmr.ticks s.tmr.alarm * s.cfg.tu * s.rateDen ≤ x * s.rateNum) ∧
    (s.deadline = none ↔ ∀ t, s.alarmDue t = false)

/-- 42_timer.md R176: `Sync`. -/
def Obligations.SyncIsTheTickCountAlgorithm : Prop :=
  ∀ (s : State) (now : Nat),
    (s.tmr.enabled = false → s.sync now = { s with tmr := { s.tmr with baseline := now } }) ∧
    (s.tmr.enabled = true →
      (s.sync now).tmr = { s.tmr with
        ticks := BitVec.ofNat 56 (s.tmr.ticks.toNat + s.delta now)
        pending := if crosses s.tmr.ticks (s.delta now) s.tmr.alarm
          then s.tmr.pending ||| 1#32 <<< s.cfg.tmrAlarmBit else s.tmr.pending
        baseline := now } ∧
      (crosses s.tmr.ticks (s.delta now) s.tmr.alarm = true → LineRecomputed s now (s.sync now)) ∧
      (crosses s.tmr.ticks (s.delta now) s.tmr.alarm = false → LineKept s (s.sync now)) ∧
      SameStorage s (s.sync now) ∧ SameFrame s (s.sync now) ∧ (s.sync now).shell = s.shell ∧
      (s.sync now).rdata = s.rdata)

/-- The spec's own inference (42_timer.md R202 (a), "[derived: from rules R173, R176, R187, R188]"): no operation but
a count write, `TMR_DISABLE` and `RESET` moves the count otherwise than by the ticks elapsed since the baseline, so
none decreases it before a wrap. -/
def Obligations.CountMovesOnlyByElapsedTicks : Prop :=
  ∀ (i : Instr) (s t : State), exec i s = .next t →
    (∀ d, i ≠ .wrTmrTimeLo d) → (∀ d, i ≠ .wrTmrTimeHi d) → i ≠ .tmrDisable → i ≠ .reset →
    (t.tmr.ticks = s.tmr.ticks ∨ t.tmr.ticks.toNat = (s.tmr.ticks.toNat + s.delta s.now) % 2 ^ 56) ∧
    (s.tmr.ticks.toNat + s.delta s.now < 2 ^ 56 → s.tmr.ticks.toNat ≤ t.tmr.ticks.toNat)

/-- The spec's own inference (42_timer.md R203, "[derived: from rules R173, R176]"): over k invocations of `Sync` at a
constant rate the count loses less than one tick per invocation but the last, and never runs fast. -/
def Obligations.CountStaysWithinKTicksOfIdeal : Prop :=
  ∀ (s : State) (ts : List Nat) (last : Nat), s.tmr.enabled = true →
    (s.tmr.baseline :: ts).Pairwise (· ≤ ·) → ts.getLast? = some last →
    s.idealTicks s.tmr.baseline last ≤ s.ticksAdded ts + (ts.length - 1) ∧
    s.ticksAdded ts ≤ s.idealTicks s.tmr.baseline last ∧
    (s.syncAll ts).tmr.ticks.toNat = (s.tmr.ticks.toNat + s.ticksAdded ts) % 2 ^ 56

/-- The spec's own inference (70_reset_and_hazards.md R281, "[derived: from 42_timer.md rules R173, R176]"):
invocations of `Sync` spaced less than one tick period apart never advance the counter, though the baseline moves. -/
def Obligations.PollingFasterThanATickStarvesTheCounter : Prop :=
  ∀ (s : State) (ts : List Nat) (last : Nat),
    (s.tmr.baseline :: ts).IsChain (fun t u => (u - t) * s.rateNum < s.cfg.tu * s.rateDen) →
    ts.getLast? = some last →
    (s.syncAll ts).tmr.ticks = s.tmr.ticks ∧ (s.syncAll ts).tmr.baseline = last

/-- The spec's own inference (30_encoding.md R97, "[derived: from rules R95, R96]"): the 56-bit count reassembles from
its two views. -/
def Obligations.CountReassemblesFromItsViews : Prop :=
  ∀ t : Ticks, (timeHiView t).toNat % 2 ^ 29 * 2 ^ 27 + (timeLoView t).toNat / 2 ^ 5 = t.toNat

/-! The timer: its registers. -/

/-- 42_timer.md R177 to R180, R183: the stored registers read back as stored, without `Sync`. -/
def Obligations.TimerStoredRegistersReadBack : Prop :=
  ∀ s : State,
    exec .rdTmrIntr s = .next { s with rdata := some s.tmr.pending } ∧
    exec .rdTmrIntrEn s = .next { s with rdata := some s.tmr.mask } ∧
    exec .rdTmrMul s = .next { s with rdata := some s.tmr.mul } ∧
    exec .rdTmrDiv s = .next { s with rdata := some s.tmr.div } ∧
    exec .rdTmrAlarm s = .next { s with rdata := some s.tmr.alarm }

/-- 42_timer.md R181, R182: a read of a half of the count runs `Sync` and returns that half of the count it leaves,
placed as 30_encoding.md R95, R96 say. -/
def Obligations.CountReadsSyncAndReturnTheirHalf : Prop :=
  ∀ s : State,
    (∃ v : Word, exec .rdTmrTimeLo s = .next { s.sync s.now with rdata := some v } ∧
      v.toNat = (s.sync s.now).tmr.ticks.toNat % 2 ^ 27 * 2 ^ 5) ∧
    (∃ v : Word, exec .rdTmrTimeHi s = .next { s.sync s.now with rdata := some v } ∧
      v.toNat = (s.sync s.now).tmr.ticks.toNat / 2 ^ 27)

/-- 42_timer.md R184, R192: any other offset of the timer's window. -/
def Obligations.TimerOtherOffsetsHaveNoEffect : Prop :=
  ∀ (s : State) (off : Nat) (d : Word),
    exec (.rdTmrOther off) s = .next { s with rdata := some 0 } ∧
    exec (.wrTmrOther off d) s = .next { s with rdata := none }

/-- 42_timer.md R185: write-1-to-clear of TMR_INTR, then `Recompute`; nothing else. -/
def Obligations.TimerPendingIsWriteOneToClear : Prop :=
  ∀ (s : State) (d : Word), ∃ t, exec (.wrTmrIntr d) s = .next t ∧
    t.tmr = { s.tmr with pending := t.tmr.pending } ∧
    (∀ b, t.tmr.pending.getLsbD b = (s.tmr.pending.getLsbD b && !d.getLsbD b)) ∧
    LineRecomputed s s.now t ∧ SameStorage s t ∧ SameFrame s t ∧ t.shell = s.shell ∧ t.rdata = none

/-- 42_timer.md R186: a write of TMR_INTR_EN replaces the mask, then `Recompute`; nothing else. -/
def Obligations.TimerMaskIsReplacedWhole : Prop :=
  ∀ (s : State) (d : Word), ∃ t, exec (.wrTmrIntrEn d) s = .next t ∧ t.tmr = { s.tmr with mask := d } ∧
    LineRecomputed s s.now t ∧ SameStorage s t ∧ SameFrame s t ∧ t.shell = s.shell ∧ t.rdata = none

/-- 42_timer.md R187, R188, R191: a write of the multiplier, the divisor or the alarm runs `Sync` under the old
values, then stores; nothing else. -/
def Obligations.RatioAndAlarmWritesSyncThenStore : Prop :=
  ∀ (s : State) (d : Word),
    exec (.wrTmrMul d) s =
      .next { s.sync s.now with tmr := { (s.sync s.now).tmr with mul := d }, rdata := none } ∧
    exec (.wrTmrDiv d) s =
      .next { s.sync s.now with tmr := { (s.sync s.now).tmr with div := d }, rdata := none } ∧
    exec (.wrTmrAlarm d) s =
      .next { s.sync s.now with tmr := { (s.sync s.now).tmr with alarm := d }, rdata := none }

/-- 42_timer.md R187, R188: a ratio write integrates the interval before it at the old ratio, once, and the interval
after it at the new one. -/
def Obligations.RatioWritesSplitTheIntervalAtTheWrite : Prop :=
  ∀ (s : State) (d : Word), s.tmr.enabled = true →
    (∃ t, exec (.wrTmrMul d) s = .next t ∧ t.tmr.ticks.toNat = (s.tmr.ticks.toNat + s.delta s.now) % 2 ^ 56 ∧
      ∀ later, t.delta later = (later - s.now) * (s.coreFreq * d.toNat) / (s.cfg.tu * s.rateDen)) ∧
    (∃ t, exec (.wrTmrDiv d) s = .next t ∧ t.tmr.ticks.toNat = (s.tmr.ticks.toNat + s.delta s.now) % 2 ^ 56 ∧
      ∀ later, t.delta later = (later - s.now) * s.rateNum / (s.cfg.tu * (if d = 0 then 1 else d.toNat)))

/-- 42_timer.md R189, R190: a write of a half of the count runs `Sync`, then replaces that half and keeps the other;
it raises no alarm of its own. -/
def Obligations.CountWritesReplaceOneHalf : Prop :=
  ∀ (s : State) (d : Word),
    (∃ x : Ticks, exec (.wrTmrTimeLo d) s =
        .next { s.sync s.now with tmr := { (s.sync s.now).tmr with ticks := x }, rdata := none } ∧
      x.toNat = (s.sync s.now).tmr.ticks.toNat / 2 ^ 27 * 2 ^ 27 + d.toNat / 2 ^ 5) ∧
    (∃ x : Ticks, exec (.wrTmrTimeHi d) s =
        .next { s.sync s.now with tmr := { (s.sync s.now).tmr with ticks := x }, rdata := none } ∧
      x.toNat = d.toNat % 2 ^ 29 * 2 ^ 27 + (s.sync s.now).tmr.ticks.toNat % 2 ^ 27)

/-- 42_timer.md R190: at one instant, the low register written to 0 and then the high register to 1 leave `1 << 27`,
whatever the count was. -/
def Obligations.LowZeroThenHighOneGivesTwoToThe27 : Prop :=
  ∀ s : State, ∃ t u, exec (.wrTmrTimeLo 0) s = .next t ∧ exec (.wrTmrTimeHi 1) t = .next u ∧
    u.tmr.ticks.toNat = 2 ^ 27

/-- 42_timer.md R193: `TMR_ENABLE` from Disabled sets the state and the baseline and nothing else; from Enabled it has
no effect. -/
def Obligations.EnableStartsFromTheStoredCount : Prop :=
  ∀ s : State, exec .tmrEnable s = .next { s with
    tmr := if s.tmr.enabled then s.tmr else { s.tmr with enabled := true, baseline := s.now }
    rdata := none }

/-- 42_timer.md R194, R195: `TMR_DISABLE` from Enabled clears the whole timer without `Sync` and recomputes the line;
from Disabled it has no effect. -/
def Obligations.DisableClearsTheTimer : Prop :=
  ∀ s : State,
    (s.tmr.enabled = true → ∃ t, exec .tmrDisable s = .next t ∧ t.tmr = ⟨false, 0, 0, 0, 0, 0, 0, s.now⟩ ∧
      LineRecomputed s s.now t ∧ SameStorage s t ∧ SameFrame s t ∧ t.shell = s.shell ∧ t.rdata = none) ∧
    (s.tmr.enabled = false → exec .tmrDisable s = .next { s with rdata := none })

/-- 42_timer.md R200: where the alarm is due, `ALARM_CHECK` is a `Sync` that sets the alarm bit and recomputes the
line, after which the alarm is not due; where it is not due, the step does not exist. -/
def Obligations.AlarmCheckFiresExactlyWhenDue : Prop :=
  ∀ s : State,
    (s.alarmDue s.now = true → ∃ t, exec .alarmCheck s = .next t ∧ t = { s.sync s.now with rdata := none } ∧
      t.tmr.pending = s.tmr.pending ||| 1#32 <<< s.cfg.tmrAlarmBit ∧ t.tmr.baseline = s.now ∧
      LineRecomputed s s.now t ∧ t.alarmDue s.now = false) ∧
    (s.alarmDue s.now = false → exec .alarmCheck s = .refused .alarmNotDue)

/-! The shell engines. -/

/-- 43_shell_engines.md R221: a read of a word of a register block returns it as stored and changes nothing; at
power-on every word reads zero. -/
def Obligations.BlkReadsReturnTheStoredWord : Prop :=
  (∀ (s : State) (e off : Nat),
    exec (.rdBlkWord e off) s = .next { s with rdata := some ((s.blkAt e).read (off / 4)) }) ∧
  ∀ (c : Cfg) (now e i : Nat), ((State.powerOn c now).blkAt e).read i = 0

/-- 43_shell_engines.md R222: a write of a word of a register block stores it, leaves every other word of every block,
and changes nothing else. -/
def Obligations.BlkWritesStoreOneWord : Prop :=
  ∀ (s : State) (e off : Nat) (d : Word), Store.wf [] s.blk = true → (s.blkAt e).wf = true →
    ∃ t, exec (.wrBlkWord e off d) s = .next t ∧ (t.blkAt e).read (off / 4) = d ∧
      (∀ f j, f ≠ e ∨ j ≠ off / 4 → (t.blkAt f).read j = (s.blkAt f).read j) ∧
      t = { s with blk := t.blk, rdata := none }

/-- 43_shell_engines.md R223: a misaligned access of a register block. -/
def Obligations.BlkMisalignedAccessesHaveNoEffect : Prop :=
  ∀ (s : State) (e off : Nat) (d : Word),
    exec (.rdBlkMisaligned e off) s = .next { s with rdata := some 0 } ∧
    exec (.wrBlkMisaligned e off d) s = .next { s with rdata := none }

/-- 43_shell_engines.md R227, R228: the pair of an interrupt shell reads back as stored. -/
def Obligations.ShellReadsReturnThePair : Prop :=
  ∀ (s : State) (e : Nat),
    exec (.rdShellIntr e) s = .next { s with rdata := some (s.shellAt e).pending } ∧
    exec (.rdShellIntrEn e) s = .next { s with rdata := some (s.shellAt e).mask }

/-- 43_shell_engines.md R229: write-1-to-clear of SHELL_INTR, then `Recompute`; no other engine changes. -/
def Obligations.ShellPendingIsWriteOneToClear : Prop :=
  ∀ (s : State) (e : Nat) (d : Word), Store.wf { pending := 0, mask := 0 } s.shell = true →
    ∃ t, exec (.wrShellIntr e d) s = .next t ∧
      (∀ b, (t.shellAt e).pending.getLsbD b = ((s.shellAt e).pending.getLsbD b && !d.getLsbD b)) ∧
      (t.shellAt e).mask = (s.shellAt e).mask ∧ (∀ f, f ≠ e → t.shellAt f = s.shellAt f) ∧
      LineRecomputed s s.now t ∧ t.tmr = s.tmr ∧ SameStorage s t ∧ SameFrame s t ∧ t.rdata = none

/-- 43_shell_engines.md R230: a write of SHELL_INTR_EN replaces the mask, then `Recompute`; no other engine changes.
-/
def Obligations.ShellMaskIsReplacedWhole : Prop :=
  ∀ (s : State) (e : Nat) (d : Word), Store.wf { pending := 0, mask := 0 } s.shell = true →
    ∃ t, exec (.wrShellIntrEn e d) s = .next t ∧ t.shellAt e = { pending := (s.shellAt e).pending, mask := d } ∧
      (∀ f, f ≠ e → t.shellAt f = s.shellAt f) ∧
      LineRecomputed s s.now t ∧ t.tmr = s.tmr ∧ SameStorage s t ∧ SameFrame s t ∧ t.rdata = none

/-- 43_shell_engines.md R232: `HW_EVENT` sets pending bits, then `Recompute`; no other engine changes. -/
def Obligations.HwEventSetsPendingBits : Prop :=
  ∀ (s : State) (e : Nat) (bits : Word), Store.wf { pending := 0, mask := 0 } s.shell = true →
    ∃ t, exec (.hwEvent e bits) s = .next t ∧
      (∀ b, (t.shellAt e).pending.getLsbD b = ((s.shellAt e).pending.getLsbD b || bits.getLsbD b)) ∧
      (t.shellAt e).mask = (s.shellAt e).mask ∧ (∀ f, f ≠ e → t.shellAt f = s.shellAt f) ∧
      LineRecomputed s s.now t ∧ t.tmr = s.tmr ∧ SameStorage s t ∧ SameFrame s t ∧ t.rdata = none

/-- 43_shell_engines.md R231: any other offset of an interrupt shell's window. -/
def Obligations.ShellOtherOffsetsHaveNoEffect : Prop :=
  ∀ (s : State) (e off : Nat) (d : Word),
    exec (.rdShellOther e off) s = .next { s with rdata := some 0 } ∧
    exec (.wrShellOther e off d) s = .next { s with rdata := none }

/-- The spec's own inference (20_memory.md R72, "[derived: from 42_timer.md rule R185 and rule R66]"): a hardware
event on bits that a clearing write does not name is never lost, in either order, and the two orders leave the same
pending field. -/
def Obligations.ClearingNeverLosesUnnamedEvents : Prop :=
  ∀ (s : State) (e : Nat) (d bits : Word), Store.wf { pending := 0, mask := 0 } s.shell = true → bits &&& d = 0 →
    ∃ t u t' u', exec (.wrShellIntr e d) s = .next t ∧ exec (.hwEvent e bits) t = .next u ∧
      exec (.hwEvent e bits) s = .next t' ∧ exec (.wrShellIntr e d) t' = .next u' ∧
      u.shell = u'.shell ∧ (u.shellAt e).pending &&& bits = bits
end

