-- ==== Sys2Proof/Laws/Config.lean ====
section
/-! SUPPORT. What a well-formed configuration gives (00_scope.md R8). -/

namespace Sys2Proof

/-- Window membership as two inequalities. -/
theorem Engine.contains_iff (e : Engine) (a : Nat) : e.contains a = true ↔ e.base ≤ a ∧ a < e.base + e.size := by
  simp [Engine.contains]

/-- The items of 00_scope.md R8. -/
theorem Cfg.wf_parts {c : Cfg} (h : c.wf = true) : c.windowsOk = true ∧ c.disjoint = true ∧ c.singletons = true ∧
    c.offsetsOk = true ∧ c.paramsOk = true ∧ c.namesOk = true := by
  simp only [Cfg.wf, Bool.and_eq_true] at h; tauto

/-- At most one window holds an address (20_memory.md R68). -/
theorem Cfg.unique_of_contains {c : Cfg} (h : c.wf = true) {i j : Nat} {e f : Engine} {a : Nat}
    (hi : c.engineAt i = some e) (hj : c.engineAt j = some f) (he : e.contains a = true) (hf : f.contains a = true) :
    i = j := by
  have hd := (Cfg.wf_parts h).2.1
  simp only [Cfg.disjoint, decide_eq_true_eq] at hd
  rw [List.pairwise_iff_getElem] at hd
  rw [Engine.contains_iff] at he hf
  simp only [Cfg.engineAt, List.getElem?_eq_some_iff] at hi hj
  obtain ⟨hi, rfl⟩ := hi
  obtain ⟨hj, rfl⟩ := hj
  rcases Nat.lt_trichotomy i j with hlt | heq | hlt
  · have := hd i j hi hj hlt
    simp only [Engine.apart, Bool.or_eq_true, decide_eq_true_eq] at this
    omega
  · exact heq
  · have := hd j i hj hi hlt
    simp only [Engine.apart, Bool.or_eq_true, decide_eq_true_eq] at this
    omega

/-- The one engine of a kind of which there is one. -/
theorem Cfg.firstOf_unique {c : Cfg} (h : c.wf = true) {k : EngineKind} (hk : k = .clkGen ∨ k = .timer) :
    ∃ i en, c.firstOf k = some en ∧ c.engineAt i = some en ∧ en.kind = k ∧
      ∀ j f, c.engineAt j = some f → f.kind = k → f = en := by
  have hs := (Cfg.wf_parts h).2.2.1
  simp only [Cfg.singletons, Bool.and_eq_true, decide_eq_true_eq] at hs
  have hl : (c.engines.filter fun e => e.kind == k).length = 1 := by rcases hk with rfl | rfl; exact hs.1; exact hs.2
  obtain ⟨en, hen⟩ := List.length_eq_one_iff.mp hl
  have hmem : ∀ f, f ∈ c.engines → f.kind = k → f = en := by
    intro f hf hfk
    have : f ∈ c.engines.filter fun e => e.kind == k := by simp [hf, hfk]
    rw [hen] at this; simpa using this
  have hin : en ∈ c.engines.filter fun e => e.kind == k := by rw [hen]; simp
  simp only [List.mem_filter, beq_iff_eq] at hin
  obtain ⟨i, hi⟩ := List.mem_iff_getElem?.mp hin.1
  refine ⟨i, en, ?_, hi, hin.2, fun j f hj hf => hmem f (List.mem_of_getElem? hj) hf⟩
  unfold Cfg.firstOf
  cases hf : c.engines.find? fun e => e.kind == k with
  | none => rw [List.find?_eq_none] at hf; exact absurd hin.2 (by simpa using hf _ hin.1)
  | some f =>
    have hfk : f.kind = k := by simpa using List.find?_some hf
    rw [hmem f (List.mem_of_find?_eq_some hf) hfk]

/-- R8 (a), (c) for one engine. -/
theorem Cfg.window_of_wf {c : Cfg} (h : c.wf = true) {i : Nat} {en : Engine} (hi : c.engineAt i = some en) :
    0 < en.size ∧ en.base + en.size ≤ 2 ^ 32 ∧ en.base % 4 = 0 ∧ en.size % 4 = 0 := by
  have hw := (Cfg.wf_parts h).1
  simp only [Cfg.windowsOk, List.all_eq_true] at hw
  have := hw en (List.mem_of_getElem? hi)
  simp only [Engine.inSpace, Engine.aligned, Bool.and_eq_true, decide_eq_true_eq] at this
  omega

/-- R8 (e) for one register offset of one engine. -/
theorem Cfg.offset_of_wf {c : Cfg} (h : c.wf = true) {i : Nat} {en : Engine} (hi : c.engineAt i = some en) {o : Nat}
    (ho : o ∈ c.offsOf en.kind) : o % 4 = 0 ∧ o < en.size := by
  have hw := (Cfg.wf_parts h).2.2.2.1
  simp only [Cfg.offsetsOk, Bool.and_eq_true, List.all_eq_true, decide_eq_true_eq] at hw
  obtain ⟨⟨⟨⟨h1, h2⟩, -⟩, -⟩, -⟩ := hw
  refine ⟨h1 o ?_, h2 en (List.mem_of_getElem? hi) o ho⟩
  cases hk : en.kind <;> simp_all [Cfg.offsOf]

/-- R8 (e): the offsets of one kind are distinct. -/
theorem Cfg.offsets_nodup {c : Cfg} (h : c.wf = true) : c.clkOffs.Nodup ∧ c.tmrOffs.Nodup ∧ c.shellOffs.Nodup := by
  have hw := (Cfg.wf_parts h).2.2.2.1
  simp only [Cfg.offsetsOk, Bool.and_eq_true, decide_eq_true_eq] at hw
  tauto

/-- R8 (f). -/
theorem Cfg.tu_pos {c : Cfg} (h : c.wf = true) : 0 < c.tu := by
  have := (Cfg.wf_parts h).2.2.2.2.1
  simp only [Cfg.paramsOk, Bool.and_eq_true, decide_eq_true_eq] at this
  exact this.1

/-- R8 (f). -/
theorem Cfg.alarmBit_lt {c : Cfg} (h : c.wf = true) : c.tmrAlarmBit < 32 := by
  have := (Cfg.wf_parts h).2.2.2.2.1
  simp only [Cfg.paramsOk, Bool.and_eq_true, decide_eq_true_eq] at this
  exact this.2

end Sys2Proof
end

