-- ==== Sys2Proof/Laws/State.lean ====
section
/-! SUPPORT. One lemma per field per state update: what each update of Machine/Ops.lean and Machine/Schedule.lean leaves
in each field. With them no proof unfolds a record update. -/

namespace Sys2Proof.Machine

variable (s : State)

@[simp] theorem State.reply_cfg (v : Word) : (s.reply v).cfg = s.cfg := rfl
@[simp] theorem State.reply_disp (v : Word) : (s.reply v).disp = s.disp := rfl
@[simp] theorem State.reply_clk (v : Word) : (s.reply v).clk = s.clk := rfl
@[simp] theorem State.reply_tmr (v : Word) : (s.reply v).tmr = s.tmr := rfl
@[simp] theorem State.reply_shell (v : Word) : (s.reply v).shell = s.shell := rfl
@[simp] theorem State.reply_blk (v : Word) : (s.reply v).blk = s.blk := rfl
@[simp] theorem State.reply_trace (v : Word) : (s.reply v).trace = s.trace := rfl
@[simp] theorem State.reply_rdata (v : Word) : (s.reply v).rdata = some v := rfl
@[simp] theorem State.reply_now (v : Word) : (s.reply v).now = s.now := rfl
@[simp] theorem State.reply_port (v : Word) : (s.reply v).port = s.port := rfl
@[simp] theorem State.reply_draws (v : Word) : (s.reply v).draws = s.draws := rfl
@[simp] theorem State.reply_deadlineSince (v : Word) : (s.reply v).deadlineSince = s.deadlineSince := rfl

@[simp] theorem State.ack_cfg : (s.ack).cfg = s.cfg := rfl
@[simp] theorem State.ack_disp : (s.ack).disp = s.disp := rfl
@[simp] theorem State.ack_clk : (s.ack).clk = s.clk := rfl
@[simp] theorem State.ack_tmr : (s.ack).tmr = s.tmr := rfl
@[simp] theorem State.ack_shell : (s.ack).shell = s.shell := rfl
@[simp] theorem State.ack_blk : (s.ack).blk = s.blk := rfl
@[simp] theorem State.ack_trace : (s.ack).trace = s.trace := rfl
@[simp] theorem State.ack_rdata : (s.ack).rdata = none := rfl
@[simp] theorem State.ack_now : (s.ack).now = s.now := rfl
@[simp] theorem State.ack_port : (s.ack).port = s.port := rfl
@[simp] theorem State.ack_draws : (s.ack).draws = s.draws := rfl
@[simp] theorem State.ack_deadlineSince : (s.ack).deadlineSince = s.deadlineSince := rfl

@[simp] theorem State.emitNotify_cfg (l : Bool) (t : Nat) : (s.emitNotify l t).cfg = s.cfg := rfl
@[simp] theorem State.emitNotify_disp (l : Bool) (t : Nat) : (s.emitNotify l t).disp = s.disp := rfl
@[simp] theorem State.emitNotify_clk (l : Bool) (t : Nat) : (s.emitNotify l t).clk = s.clk := rfl
@[simp] theorem State.emitNotify_tmr (l : Bool) (t : Nat) : (s.emitNotify l t).tmr = s.tmr := rfl
@[simp] theorem State.emitNotify_shell (l : Bool) (t : Nat) : (s.emitNotify l t).shell = s.shell := rfl
@[simp] theorem State.emitNotify_blk (l : Bool) (t : Nat) : (s.emitNotify l t).blk = s.blk := rfl
@[simp] theorem State.emitNotify_trace (l : Bool) (t : Nat) : (s.emitNotify l t).trace = s.trace ++ [.notify l t] := rfl
@[simp] theorem State.emitNotify_rdata (l : Bool) (t : Nat) : (s.emitNotify l t).rdata = s.rdata := rfl
@[simp] theorem State.emitNotify_now (l : Bool) (t : Nat) : (s.emitNotify l t).now = s.now := rfl
@[simp] theorem State.emitNotify_port (l : Bool) (t : Nat) : (s.emitNotify l t).port = s.port := rfl
@[simp] theorem State.emitNotify_draws (l : Bool) (t : Nat) : (s.emitNotify l t).draws = s.draws := rfl
@[simp] theorem State.emitNotify_deadlineSince (l : Bool) (t : Nat) : (s.emitNotify l t).deadlineSince = s.deadlineSince := rfl

@[simp] theorem State.setTicks_cfg (x : Ticks) : (s.setTicks x).cfg = s.cfg := rfl
@[simp] theorem State.setTicks_disp (x : Ticks) : (s.setTicks x).disp = s.disp := rfl
@[simp] theorem State.setTicks_clk (x : Ticks) : (s.setTicks x).clk = s.clk := rfl
@[simp] theorem State.setTicks_tmr (x : Ticks) : (s.setTicks x).tmr = { s.tmr with ticks := x } := rfl
@[simp] theorem State.setTicks_shell (x : Ticks) : (s.setTicks x).shell = s.shell := rfl
@[simp] theorem State.setTicks_blk (x : Ticks) : (s.setTicks x).blk = s.blk := rfl
@[simp] theorem State.setTicks_trace (x : Ticks) : (s.setTicks x).trace = s.trace := rfl
@[simp] theorem State.setTicks_rdata (x : Ticks) : (s.setTicks x).rdata = s.rdata := rfl
@[simp] theorem State.setTicks_now (x : Ticks) : (s.setTicks x).now = s.now := rfl
@[simp] theorem State.setTicks_port (x : Ticks) : (s.setTicks x).port = s.port := rfl
@[simp] theorem State.setTicks_draws (x : Ticks) : (s.setTicks x).draws = s.draws := rfl
@[simp] theorem State.setTicks_deadlineSince (x : Ticks) : (s.setTicks x).deadlineSince = s.deadlineSince := rfl

@[simp] theorem State.setLine_cfg (l : Bool) : (s.setLine l).cfg = s.cfg := rfl
@[simp] theorem State.setLine_disp (l : Bool) : (s.setLine l).disp = { irqLine := l } := rfl
@[simp] theorem State.setLine_clk (l : Bool) : (s.setLine l).clk = s.clk := rfl
@[simp] theorem State.setLine_tmr (l : Bool) : (s.setLine l).tmr = s.tmr := rfl
@[simp] theorem State.setLine_shell (l : Bool) : (s.setLine l).shell = s.shell := rfl
@[simp] theorem State.setLine_blk (l : Bool) : (s.setLine l).blk = s.blk := rfl
@[simp] theorem State.setLine_trace (l : Bool) : (s.setLine l).trace = s.trace := rfl
@[simp] theorem State.setLine_rdata (l : Bool) : (s.setLine l).rdata = s.rdata := rfl
@[simp] theorem State.setLine_now (l : Bool) : (s.setLine l).now = s.now := rfl
@[simp] theorem State.setLine_port (l : Bool) : (s.setLine l).port = s.port := rfl
@[simp] theorem State.setLine_draws (l : Bool) : (s.setLine l).draws = s.draws := rfl
@[simp] theorem State.setLine_deadlineSince (l : Bool) : (s.setLine l).deadlineSince = s.deadlineSince := rfl

@[simp] theorem State.setPending_cfg (x : Word) : (s.setPending x).cfg = s.cfg := rfl
@[simp] theorem State.setPending_disp (x : Word) : (s.setPending x).disp = s.disp := rfl
@[simp] theorem State.setPending_clk (x : Word) : (s.setPending x).clk = s.clk := rfl
@[simp] theorem State.setPending_tmr (x : Word) : (s.setPending x).tmr = { s.tmr with pending := x } := rfl
@[simp] theorem State.setPending_shell (x : Word) : (s.setPending x).shell = s.shell := rfl
@[simp] theorem State.setPending_blk (x : Word) : (s.setPending x).blk = s.blk := rfl
@[simp] theorem State.setPending_trace (x : Word) : (s.setPending x).trace = s.trace := rfl
@[simp] theorem State.setPending_rdata (x : Word) : (s.setPending x).rdata = s.rdata := rfl
@[simp] theorem State.setPending_now (x : Word) : (s.setPending x).now = s.now := rfl
@[simp] theorem State.setPending_port (x : Word) : (s.setPending x).port = s.port := rfl
@[simp] theorem State.setPending_draws (x : Word) : (s.setPending x).draws = s.draws := rfl
@[simp] theorem State.setPending_deadlineSince (x : Word) : (s.setPending x).deadlineSince = s.deadlineSince := rfl

@[simp] theorem State.setMask_cfg (x : Word) : (s.setMask x).cfg = s.cfg := rfl
@[simp] theorem State.setMask_disp (x : Word) : (s.setMask x).disp = s.disp := rfl
@[simp] theorem State.setMask_clk (x : Word) : (s.setMask x).clk = s.clk := rfl
@[simp] theorem State.setMask_tmr (x : Word) : (s.setMask x).tmr = { s.tmr with mask := x } := rfl
@[simp] theorem State.setMask_shell (x : Word) : (s.setMask x).shell = s.shell := rfl
@[simp] theorem State.setMask_blk (x : Word) : (s.setMask x).blk = s.blk := rfl
@[simp] theorem State.setMask_trace (x : Word) : (s.setMask x).trace = s.trace := rfl
@[simp] theorem State.setMask_rdata (x : Word) : (s.setMask x).rdata = s.rdata := rfl
@[simp] theorem State.setMask_now (x : Word) : (s.setMask x).now = s.now := rfl
@[simp] theorem State.setMask_port (x : Word) : (s.setMask x).port = s.port := rfl
@[simp] theorem State.setMask_draws (x : Word) : (s.setMask x).draws = s.draws := rfl
@[simp] theorem State.setMask_deadlineSince (x : Word) : (s.setMask x).deadlineSince = s.deadlineSince := rfl

@[simp] theorem State.setMul_cfg (x : Word) : (s.setMul x).cfg = s.cfg := rfl
@[simp] theorem State.setMul_disp (x : Word) : (s.setMul x).disp = s.disp := rfl
@[simp] theorem State.setMul_clk (x : Word) : (s.setMul x).clk = s.clk := rfl
@[simp] theorem State.setMul_tmr (x : Word) : (s.setMul x).tmr = { s.tmr with mul := x } := rfl
@[simp] theorem State.setMul_shell (x : Word) : (s.setMul x).shell = s.shell := rfl
@[simp] theorem State.setMul_blk (x : Word) : (s.setMul x).blk = s.blk := rfl
@[simp] theorem State.setMul_trace (x : Word) : (s.setMul x).trace = s.trace := rfl
@[simp] theorem State.setMul_rdata (x : Word) : (s.setMul x).rdata = s.rdata := rfl
@[simp] theorem State.setMul_now (x : Word) : (s.setMul x).now = s.now := rfl
@[simp] theorem State.setMul_port (x : Word) : (s.setMul x).port = s.port := rfl
@[simp] theorem State.setMul_draws (x : Word) : (s.setMul x).draws = s.draws := rfl
@[simp] theorem State.setMul_deadlineSince (x : Word) : (s.setMul x).deadlineSince = s.deadlineSince := rfl

@[simp] theorem State.setDiv_cfg (x : Word) : (s.setDiv x).cfg = s.cfg := rfl
@[simp] theorem State.setDiv_disp (x : Word) : (s.setDiv x).disp = s.disp := rfl
@[simp] theorem State.setDiv_clk (x : Word) : (s.setDiv x).clk = s.clk := rfl
@[simp] theorem State.setDiv_tmr (x : Word) : (s.setDiv x).tmr = { s.tmr with div := x } := rfl
@[simp] theorem State.setDiv_shell (x : Word) : (s.setDiv x).shell = s.shell := rfl
@[simp] theorem State.setDiv_blk (x : Word) : (s.setDiv x).blk = s.blk := rfl
@[simp] theorem State.setDiv_trace (x : Word) : (s.setDiv x).trace = s.trace := rfl
@[simp] theorem State.setDiv_rdata (x : Word) : (s.setDiv x).rdata = s.rdata := rfl
@[simp] theorem State.setDiv_now (x : Word) : (s.setDiv x).now = s.now := rfl
@[simp] theorem State.setDiv_port (x : Word) : (s.setDiv x).port = s.port := rfl
@[simp] theorem State.setDiv_draws (x : Word) : (s.setDiv x).draws = s.draws := rfl
@[simp] theorem State.setDiv_deadlineSince (x : Word) : (s.setDiv x).deadlineSince = s.deadlineSince := rfl

@[simp] theorem State.setAlarm_cfg (x : Word) : (s.setAlarm x).cfg = s.cfg := rfl
@[simp] theorem State.setAlarm_disp (x : Word) : (s.setAlarm x).disp = s.disp := rfl
@[simp] theorem State.setAlarm_clk (x : Word) : (s.setAlarm x).clk = s.clk := rfl
@[simp] theorem State.setAlarm_tmr (x : Word) : (s.setAlarm x).tmr = { s.tmr with alarm := x } := rfl
@[simp] theorem State.setAlarm_shell (x : Word) : (s.setAlarm x).shell = s.shell := rfl
@[simp] theorem State.setAlarm_blk (x : Word) : (s.setAlarm x).blk = s.blk := rfl
@[simp] theorem State.setAlarm_trace (x : Word) : (s.setAlarm x).trace = s.trace := rfl
@[simp] theorem State.setAlarm_rdata (x : Word) : (s.setAlarm x).rdata = s.rdata := rfl
@[simp] theorem State.setAlarm_now (x : Word) : (s.setAlarm x).now = s.now := rfl
@[simp] theorem State.setAlarm_port (x : Word) : (s.setAlarm x).port = s.port := rfl
@[simp] theorem State.setAlarm_draws (x : Word) : (s.setAlarm x).draws = s.draws := rfl
@[simp] theorem State.setAlarm_deadlineSince (x : Word) : (s.setAlarm x).deadlineSince = s.deadlineSince := rfl

@[simp] theorem State.enableAt_cfg (t : Nat) : (s.enableAt t).cfg = s.cfg := rfl
@[simp] theorem State.enableAt_disp (t : Nat) : (s.enableAt t).disp = s.disp := rfl
@[simp] theorem State.enableAt_clk (t : Nat) : (s.enableAt t).clk = s.clk := rfl
@[simp] theorem State.enableAt_tmr (t : Nat) : (s.enableAt t).tmr = { s.tmr with enabled := true, baseline := t } := rfl
@[simp] theorem State.enableAt_shell (t : Nat) : (s.enableAt t).shell = s.shell := rfl
@[simp] theorem State.enableAt_blk (t : Nat) : (s.enableAt t).blk = s.blk := rfl
@[simp] theorem State.enableAt_trace (t : Nat) : (s.enableAt t).trace = s.trace := rfl
@[simp] theorem State.enableAt_rdata (t : Nat) : (s.enableAt t).rdata = s.rdata := rfl
@[simp] theorem State.enableAt_now (t : Nat) : (s.enableAt t).now = s.now := rfl
@[simp] theorem State.enableAt_port (t : Nat) : (s.enableAt t).port = s.port := rfl
@[simp] theorem State.enableAt_draws (t : Nat) : (s.enableAt t).draws = s.draws := rfl
@[simp] theorem State.enableAt_deadlineSince (t : Nat) : (s.enableAt t).deadlineSince = s.deadlineSince := rfl

@[simp] theorem State.setBaseline_cfg (t : Nat) : (s.setBaseline t).cfg = s.cfg := rfl
@[simp] theorem State.setBaseline_disp (t : Nat) : (s.setBaseline t).disp = s.disp := rfl
@[simp] theorem State.setBaseline_clk (t : Nat) : (s.setBaseline t).clk = s.clk := rfl
@[simp] theorem State.setBaseline_tmr (t : Nat) : (s.setBaseline t).tmr = { s.tmr with baseline := t } := rfl
@[simp] theorem State.setBaseline_shell (t : Nat) : (s.setBaseline t).shell = s.shell := rfl
@[simp] theorem State.setBaseline_blk (t : Nat) : (s.setBaseline t).blk = s.blk := rfl
@[simp] theorem State.setBaseline_trace (t : Nat) : (s.setBaseline t).trace = s.trace := rfl
@[simp] theorem State.setBaseline_rdata (t : Nat) : (s.setBaseline t).rdata = s.rdata := rfl
@[simp] theorem State.setBaseline_now (t : Nat) : (s.setBaseline t).now = s.now := rfl
@[simp] theorem State.setBaseline_port (t : Nat) : (s.setBaseline t).port = s.port := rfl
@[simp] theorem State.setBaseline_draws (t : Nat) : (s.setBaseline t).draws = s.draws := rfl
@[simp] theorem State.setBaseline_deadlineSince (t : Nat) : (s.setBaseline t).deadlineSince = s.deadlineSince := rfl

@[simp] theorem State.writeClk_cfg (i : Nat) (d : Word) : (s.writeClk i d).cfg = s.cfg := rfl
@[simp] theorem State.writeClk_disp (i : Nat) (d : Word) : (s.writeClk i d).disp = s.disp := rfl
@[simp] theorem State.writeClk_clk (i : Nat) (d : Word) : (s.writeClk i d).clk = { word := s.clk.word.write i d } := rfl
@[simp] theorem State.writeClk_tmr (i : Nat) (d : Word) : (s.writeClk i d).tmr = s.tmr := rfl
@[simp] theorem State.writeClk_shell (i : Nat) (d : Word) : (s.writeClk i d).shell = s.shell := rfl
@[simp] theorem State.writeClk_blk (i : Nat) (d : Word) : (s.writeClk i d).blk = s.blk := rfl
@[simp] theorem State.writeClk_trace (i : Nat) (d : Word) : (s.writeClk i d).trace = s.trace := rfl
@[simp] theorem State.writeClk_rdata (i : Nat) (d : Word) : (s.writeClk i d).rdata = s.rdata := rfl
@[simp] theorem State.writeClk_now (i : Nat) (d : Word) : (s.writeClk i d).now = s.now := rfl
@[simp] theorem State.writeClk_port (i : Nat) (d : Word) : (s.writeClk i d).port = s.port := rfl
@[simp] theorem State.writeClk_draws (i : Nat) (d : Word) : (s.writeClk i d).draws = s.draws := rfl
@[simp] theorem State.writeClk_deadlineSince (i : Nat) (d : Word) : (s.writeClk i d).deadlineSince = s.deadlineSince := rfl

@[simp] theorem State.writeBlk_cfg (e i : Nat) (d : Word) : (s.writeBlk e i d).cfg = s.cfg := rfl
@[simp] theorem State.writeBlk_disp (e i : Nat) (d : Word) : (s.writeBlk e i d).disp = s.disp := rfl
@[simp] theorem State.writeBlk_clk (e i : Nat) (d : Word) : (s.writeBlk e i d).clk = s.clk := rfl
@[simp] theorem State.writeBlk_tmr (e i : Nat) (d : Word) : (s.writeBlk e i d).tmr = s.tmr := rfl
@[simp] theorem State.writeBlk_shell (e i : Nat) (d : Word) : (s.writeBlk e i d).shell = s.shell := rfl
@[simp] theorem State.writeBlk_blk (e i : Nat) (d : Word) : (s.writeBlk e i d).blk = Store.write [] s.blk e ((s.blkAt e).write i d) := rfl
@[simp] theorem State.writeBlk_trace (e i : Nat) (d : Word) : (s.writeBlk e i d).trace = s.trace := rfl
@[simp] theorem State.writeBlk_rdata (e i : Nat) (d : Word) : (s.writeBlk e i d).rdata = s.rdata := rfl
@[simp] theorem State.writeBlk_now (e i : Nat) (d : Word) : (s.writeBlk e i d).now = s.now := rfl
@[simp] theorem State.writeBlk_port (e i : Nat) (d : Word) : (s.writeBlk e i d).port = s.port := rfl
@[simp] theorem State.writeBlk_draws (e i : Nat) (d : Word) : (s.writeBlk e i d).draws = s.draws := rfl
@[simp] theorem State.writeBlk_deadlineSince (e i : Nat) (d : Word) : (s.writeBlk e i d).deadlineSince = s.deadlineSince := rfl

@[simp] theorem State.setShell_cfg (e : Nat) (x : Shell) : (s.setShell e x).cfg = s.cfg := rfl
@[simp] theorem State.setShell_disp (e : Nat) (x : Shell) : (s.setShell e x).disp = s.disp := rfl
@[simp] theorem State.setShell_clk (e : Nat) (x : Shell) : (s.setShell e x).clk = s.clk := rfl
@[simp] theorem State.setShell_tmr (e : Nat) (x : Shell) : (s.setShell e x).tmr = s.tmr := rfl
@[simp] theorem State.setShell_shell (e : Nat) (x : Shell) : (s.setShell e x).shell = Store.write { pending := 0, mask := 0 } s.shell e x := rfl
@[simp] theorem State.setShell_blk (e : Nat) (x : Shell) : (s.setShell e x).blk = s.blk := rfl
@[simp] theorem State.setShell_trace (e : Nat) (x : Shell) : (s.setShell e x).trace = s.trace := rfl
@[simp] theorem State.setShell_rdata (e : Nat) (x : Shell) : (s.setShell e x).rdata = s.rdata := rfl
@[simp] theorem State.setShell_now (e : Nat) (x : Shell) : (s.setShell e x).now = s.now := rfl
@[simp] theorem State.setShell_port (e : Nat) (x : Shell) : (s.setShell e x).port = s.port := rfl
@[simp] theorem State.setShell_draws (e : Nat) (x : Shell) : (s.setShell e x).draws = s.draws := rfl
@[simp] theorem State.setShell_deadlineSince (e : Nat) (x : Shell) : (s.setShell e x).deadlineSince = s.deadlineSince := rfl

@[simp] theorem State.resetStorage_cfg : (s.resetStorage).cfg = s.cfg := rfl
@[simp] theorem State.resetStorage_disp : (s.resetStorage).disp = s.disp := rfl
@[simp] theorem State.resetStorage_clk : (s.resetStorage).clk = { word := [] } := rfl
@[simp] theorem State.resetStorage_tmr : (s.resetStorage).tmr = s.tmr := rfl
@[simp] theorem State.resetStorage_shell : (s.resetStorage).shell = [] := rfl
@[simp] theorem State.resetStorage_blk : (s.resetStorage).blk = [] := rfl
@[simp] theorem State.resetStorage_trace : (s.resetStorage).trace = s.trace := rfl
@[simp] theorem State.resetStorage_rdata : (s.resetStorage).rdata = s.rdata := rfl
@[simp] theorem State.resetStorage_now : (s.resetStorage).now = s.now := rfl
@[simp] theorem State.resetStorage_port : (s.resetStorage).port = s.port := rfl
@[simp] theorem State.resetStorage_draws : (s.resetStorage).draws = s.draws := rfl
@[simp] theorem State.resetStorage_deadlineSince : (s.resetStorage).deadlineSince = s.deadlineSince := rfl

@[simp] theorem State.resetTimer_cfg (t : Nat) : (s.resetTimer t).cfg = s.cfg := rfl
@[simp] theorem State.resetTimer_disp (t : Nat) : (s.resetTimer t).disp = s.disp := rfl
@[simp] theorem State.resetTimer_clk (t : Nat) : (s.resetTimer t).clk = s.clk := rfl
@[simp] theorem State.resetTimer_tmr (t : Nat) : (s.resetTimer t).tmr = Tmr.resetAt t := rfl
@[simp] theorem State.resetTimer_shell (t : Nat) : (s.resetTimer t).shell = s.shell := rfl
@[simp] theorem State.resetTimer_blk (t : Nat) : (s.resetTimer t).blk = s.blk := rfl
@[simp] theorem State.resetTimer_trace (t : Nat) : (s.resetTimer t).trace = s.trace := rfl
@[simp] theorem State.resetTimer_rdata (t : Nat) : (s.resetTimer t).rdata = s.rdata := rfl
@[simp] theorem State.resetTimer_now (t : Nat) : (s.resetTimer t).now = s.now := rfl
@[simp] theorem State.resetTimer_port (t : Nat) : (s.resetTimer t).port = s.port := rfl
@[simp] theorem State.resetTimer_draws (t : Nat) : (s.resetTimer t).draws = s.draws := rfl
@[simp] theorem State.resetTimer_deadlineSince (t : Nat) : (s.resetTimer t).deadlineSince = s.deadlineSince := rfl

@[simp] theorem State.monitorAt_cfg (m : Nat) : (s.monitorAt m).cfg = s.cfg := rfl
@[simp] theorem State.monitorAt_disp (m : Nat) : (s.monitorAt m).disp = s.disp := rfl
@[simp] theorem State.monitorAt_clk (m : Nat) : (s.monitorAt m).clk = s.clk := rfl
@[simp] theorem State.monitorAt_tmr (m : Nat) : (s.monitorAt m).tmr = s.tmr := rfl
@[simp] theorem State.monitorAt_shell (m : Nat) : (s.monitorAt m).shell = s.shell := rfl
@[simp] theorem State.monitorAt_blk (m : Nat) : (s.monitorAt m).blk = s.blk := rfl
@[simp] theorem State.monitorAt_trace (m : Nat) : (s.monitorAt m).trace = s.trace := rfl
@[simp] theorem State.monitorAt_rdata (m : Nat) : (s.monitorAt m).rdata = s.rdata := rfl
@[simp] theorem State.monitorAt_now (m : Nat) : (s.monitorAt m).now = m := rfl
@[simp] theorem State.monitorAt_port (m : Nat) : (s.monitorAt m).port = s.port := rfl
@[simp] theorem State.monitorAt_draws (m : Nat) : (s.monitorAt m).draws = s.draws + 1 := rfl
@[simp] theorem State.monitorAt_deadlineSince (m : Nat) : (s.monitorAt m).deadlineSince = s.deadlineSince := rfl

@[simp] theorem State.tracked_cfg (u : State) : (s.tracked u).cfg = s.cfg := rfl
@[simp] theorem State.tracked_disp (u : State) : (s.tracked u).disp = s.disp := rfl
@[simp] theorem State.tracked_clk (u : State) : (s.tracked u).clk = s.clk := rfl
@[simp] theorem State.tracked_tmr (u : State) : (s.tracked u).tmr = s.tmr := rfl
@[simp] theorem State.tracked_shell (u : State) : (s.tracked u).shell = s.shell := rfl
@[simp] theorem State.tracked_blk (u : State) : (s.tracked u).blk = s.blk := rfl
@[simp] theorem State.tracked_trace (u : State) : (s.tracked u).trace = s.trace := rfl
@[simp] theorem State.tracked_rdata (u : State) : (s.tracked u).rdata = s.rdata := rfl
@[simp] theorem State.tracked_now (u : State) : (s.tracked u).now = s.now := rfl
@[simp] theorem State.tracked_port (u : State) : (s.tracked u).port = s.port := rfl
@[simp] theorem State.tracked_draws (u : State) : (s.tracked u).draws = s.draws := rfl
@[simp] theorem State.tracked_deadlineSince (u : State) : (s.tracked u).deadlineSince = if s.deadline = u.deadline then u.deadlineSince else s.now := rfl

@[simp] theorem State.begin_cfg (r : Request) (rest : List Request) : (s.begin r rest).cfg = s.cfg := rfl
@[simp] theorem State.begin_disp (r : Request) (rest : List Request) : (s.begin r rest).disp = s.disp := rfl
@[simp] theorem State.begin_clk (r : Request) (rest : List Request) : (s.begin r rest).clk = s.clk := rfl
@[simp] theorem State.begin_tmr (r : Request) (rest : List Request) : (s.begin r rest).tmr = s.tmr := rfl
@[simp] theorem State.begin_shell (r : Request) (rest : List Request) : (s.begin r rest).shell = s.shell := rfl
@[simp] theorem State.begin_blk (r : Request) (rest : List Request) : (s.begin r rest).blk = s.blk := rfl
@[simp] theorem State.begin_trace (r : Request) (rest : List Request) : (s.begin r rest).trace = s.trace := rfl
@[simp] theorem State.begin_rdata (r : Request) (rest : List Request) : (s.begin r rest).rdata = s.rdata := rfl
@[simp] theorem State.begin_now (r : Request) (rest : List Request) : (s.begin r rest).now = r.instant := rfl
@[simp] theorem State.begin_port (r : Request) (rest : List Request) : (s.begin r rest).port = rest := rfl
@[simp] theorem State.begin_draws (r : Request) (rest : List Request) : (s.begin r rest).draws = s.draws := rfl
@[simp] theorem State.begin_deadlineSince (r : Request) (rest : List Request) : (s.begin r rest).deadlineSince = s.deadlineSince := rfl

end Sys2Proof.Machine
end

