-- ==== Sys2Proof/Laws/Store.lean ====
section
/-! SUPPORT. The sparse arrays: a read after a write, and the canonical form every write keeps. -/

namespace Sys2Proof.Machine

variable {α : Type} [DecidableEq α] {d : α}

omit [DecidableEq α] in
@[simp] theorem Store.read_nil (i : Nat) : Store.read d ([] : Store α) i = d := rfl

theorem Store.wf_cons {k : Nat} {v : α} {m : Store α} :
    Store.wf d ((k, v) :: m) = true ↔ v ≠ d ∧ (∀ q ∈ m, k < q.1) ∧ Store.wf d m = true := by
  simp only [Store.wf, List.pairwise_cons, List.all_cons, Bool.and_eq_true, decide_eq_true_eq]
  tauto

omit [DecidableEq α] in
/-- An index below every listed one reads the default. -/
theorem Store.read_of_lt {m : Store α} {i : Nat} (h : ∀ q ∈ m, i < q.1) : Store.read d m i = d := by
  induction m with
  | nil => rfl
  | cons q m ih =>
    have h0 : i < q.1 := h q (by simp)
    simp [Store.read, show i ≠ q.1 by omega, ih fun r hr => h r (by simp [hr])]

/-- A write lists nothing but what was listed and the written pair. -/
theorem Store.mem_write {m : Store α} {i : Nat} {x : α} {q : Nat × α} (h : q ∈ Store.write d m i x) :
    q ∈ m ∨ q = (i, x) := by
  induction m with
  | nil => simp only [Store.write] at h; split at h <;> simp_all
  | cons r m ih =>
    simp only [Store.write] at h
    split at h
    · split at h
      · exact .inl h
      · simp only [List.mem_cons] at h ⊢; tauto
    · split at h
      · split at h
        · exact .inl (by simp [h])
        · simp only [List.mem_cons] at h ⊢; tauto
      · simp only [List.mem_cons] at h ⊢
        rcases h with h | h
        · exact .inl (.inl h)
        · rcases ih h with h | h
          · exact .inl (.inr h)
          · exact .inr h

/-- A write keeps the canonical form. -/
theorem Store.write_wf {m : Store α} (i : Nat) (x : α) (h : Store.wf d m = true) :
    Store.wf d (Store.write d m i x) = true := by
  induction m with
  | nil =>
    simp only [Store.write]
    split
    · rfl
    · next hx => exact Store.wf_cons.mpr ⟨hx, by simp, rfl⟩
  | cons r m ih =>
    obtain ⟨k, v⟩ := r
    obtain ⟨hv, hk, hm⟩ := Store.wf_cons.mp h
    simp only [Store.write]
    split
    · split
      · exact h
      · next hlt hx =>
        refine Store.wf_cons.mpr ⟨hx, ?_, h⟩
        intro q hq
        rcases List.mem_cons.mp hq with rfl | hq
        · exact hlt
        · exact Nat.lt_trans hlt (hk q hq)
    · split
      · next heq =>
        split
        · exact hm
        · next hx => exact Store.wf_cons.mpr ⟨hx, fun q hq => heq ▸ hk q hq, hm⟩
      · refine Store.wf_cons.mpr ⟨hv, ?_, ih hm⟩
        intro q hq
        rcases Store.mem_write hq with hq | rfl
        · exact hk q hq
        · show k < i; omega

/-- A read after a write to the same index gives the value written. -/
theorem Store.read_write_same {m : Store α} {i : Nat} {x : α} (h : Store.wf d m = true) :
    Store.read d (Store.write d m i x) i = x := by
  induction m with
  | nil => simp only [Store.write]; split <;> simp_all [Store.read]
  | cons r m ih =>
    obtain ⟨k, v⟩ := r
    obtain ⟨hv, hk, hm⟩ := Store.wf_cons.mp h
    simp only [Store.write]
    split
    · next hlt =>
      split
      · next hx =>
        subst hx
        refine Store.read_of_lt fun q hq => ?_
        rcases List.mem_cons.mp hq with rfl | hq
        · exact hlt
        · exact Nat.lt_trans hlt (hk q hq)
      · simp [Store.read]
    · split
      · next heq =>
        split
        · next hx => subst hx; exact Store.read_of_lt fun q hq => heq ▸ hk q hq
        · simp [Store.read]
      · next hne => simp [Store.read, hne, ih hm]

/-- A write leaves every other index alone. -/
theorem Store.read_write_other {m : Store α} {i j : Nat} (x : α) (h : j ≠ i) :
    Store.read d (Store.write d m i x) j = Store.read d m j := by
  induction m with
  | nil => simp only [Store.write]; split <;> simp [Store.read, h]
  | cons r m ih =>
    obtain ⟨k, v⟩ := r
    simp only [Store.write]
    split
    · split <;> simp [Store.read, h]
    · split
      · next heq => subst heq; split <;> simp [Store.read, h]
      · simp [Store.read, ih]

/-- A write at a good index keeps every listed index good. -/
theorem Store.write_within {p : Nat → Bool} {m : Store α} {i : Nat} (x : α) (h : Store.within p m = true)
    (hi : p i = true) : Store.within p (Store.write d m i x) = true := by
  simp only [Store.within, List.all_eq_true] at h ⊢
  intro q hq
  rcases Store.mem_write hq with hq | rfl
  · exact h q hq
  · exact hi

omit [DecidableEq α] in
/-- What an index reads is the default or a listed value. -/
theorem Store.read_mem_or_default (m : Store α) (i : Nat) :
    Store.read d m i = d ∨ (i, Store.read d m i) ∈ m := by
  induction m with
  | nil => exact .inl rfl
  | cons r m ih =>
    obtain ⟨k, v⟩ := r
    by_cases hk : i = k
    · subst hk; simp [Store.read]
    · rcases ih with h | h
      · exact .inl (by simpa [Store.read, hk] using h)
      · exact .inr (List.mem_cons_of_mem _ (by simpa [Store.read, hk] using h))

/-- Two canonical arrays that read the same everywhere are equal data. -/
theorem Store.eq_of_read {m n : Store α} (hm : Store.wf d m = true) (hn : Store.wf d n = true)
    (h : ∀ i, Store.read d m i = Store.read d n i) : m = n := by
  induction m generalizing n with
  | nil =>
    cases n with
    | nil => rfl
    | cons r n =>
      obtain ⟨hv, -, -⟩ := Store.wf_cons.mp hn
      have := h r.1
      simp [Store.read] at this
      exact absurd this.symm hv
  | cons q m ih =>
    obtain ⟨k, v⟩ := q
    obtain ⟨hv, hk, hm'⟩ := Store.wf_cons.mp hm
    cases n with
    | nil =>
      have := h k
      simp [Store.read] at this
      exact absurd this hv
    | cons r n =>
      obtain ⟨l, w⟩ := r
      obtain ⟨hw, hl, hn'⟩ := Store.wf_cons.mp hn
      have hkl : k = l := by
        rcases Nat.lt_trichotomy k l with hlt | heq | hlt
        · have := h k
          rw [Store.read_of_lt (m := (l, w) :: n) (by
            intro s hs; rcases List.mem_cons.mp hs with rfl | hs
            · exact hlt
            · exact Nat.lt_trans hlt (hl s hs))] at this
          simp [Store.read] at this
          exact absurd this hv
        · exact heq
        · have := h l
          rw [Store.read_of_lt (m := (k, v) :: m) (by
            intro s hs; rcases List.mem_cons.mp hs with rfl | hs
            · exact hlt
            · exact Nat.lt_trans hlt (hk s hs))] at this
          simp [Store.read] at this
          exact absurd this.symm hw
      subst hkl
      have hvw : v = w := by simpa [Store.read] using h k
      subst hvw
      congr 1
      refine ih hm' hn' fun i => ?_
      by_cases hi : i = k
      · subst hi; rw [Store.read_of_lt hk, Store.read_of_lt hl]
      · simpa [Store.read, hi] using h i

@[simp] theorem Memory.read_nil (i : Nat) : Memory.read [] i = 0 := rfl

theorem Memory.read_write_same {m : Memory} {i : Nat} {x : Word} (h : m.wf = true) : (m.write i x).read i = x :=
  Store.read_write_same h

theorem Memory.read_write_other {m : Memory} {i j : Nat} (x : Word) (h : j ≠ i) :
    (m.write i x).read j = m.read j := Store.read_write_other x h

theorem Memory.write_wf {m : Memory} (i : Nat) (x : Word) (h : m.wf = true) : (m.write i x).wf = true :=
  Store.write_wf i x h

end Sys2Proof.Machine
end

