-- ==== Sys2Proof/Laws/Ops.lean ====
section
/-! SUPPORT. For each shared operation, once, everything it can do: `Recompute` and `Sync` field by field, the interrupt
conditions, the engine resets. -/

namespace Sys2Proof.Machine

variable (s : State)

/-! What the pure functions of the state depend on. -/

theorem State.aggregate_congr {s t : State} (hc : s.cfg = t.cfg) (hp : s.tmr.pending = t.tmr.pending)
    (hm : s.tmr.mask = t.tmr.mask) (hs : s.shell = t.shell) : s.aggregate = t.aggregate := by
  unfold State.aggregate State.asserting State.shellAt
  rw [hc, hp, hm, hs]

theorem State.rateNum_congr {s t : State} (hc : s.cfg = t.cfg) (hk : s.clk = t.clk) (hm : s.tmr.mul = t.tmr.mul) :
    s.rateNum = t.rateNum := by
  unfold State.rateNum State.coreFreq; rw [hc, hk, hm]

theorem State.rateDen_congr {s t : State} (hd : s.tmr.div = t.tmr.div) : s.rateDen = t.rateDen := by
  unfold State.rateDen State.divEff; rw [hd]

theorem orOne_pos (n : Nat) : 0 < orOne n := by unfold orOne; split <;> omega

theorem State.rateDen_pos : 0 < s.rateDen := orOne_pos _

/-! `Recompute`. -/

@[simp] theorem State.recompute_cfg (t : Nat) : (s.recompute t).cfg = s.cfg := by
  unfold State.recompute; split <;> rfl
@[simp] theorem State.recompute_clk (t : Nat) : (s.recompute t).clk = s.clk := by
  unfold State.recompute; split <;> rfl
@[simp] theorem State.recompute_tmr (t : Nat) : (s.recompute t).tmr = s.tmr := by
  unfold State.recompute; split <;> rfl
@[simp] theorem State.recompute_shell (t : Nat) : (s.recompute t).shell = s.shell := by
  unfold State.recompute; split <;> rfl
@[simp] theorem State.recompute_blk (t : Nat) : (s.recompute t).blk = s.blk := by
  unfold State.recompute; split <;> rfl
@[simp] theorem State.recompute_rdata (t : Nat) : (s.recompute t).rdata = s.rdata := by
  unfold State.recompute; split <;> rfl
@[simp] theorem State.recompute_now (t : Nat) : (s.recompute t).now = s.now := by
  unfold State.recompute; split <;> rfl
@[simp] theorem State.recompute_port (t : Nat) : (s.recompute t).port = s.port := by
  unfold State.recompute; split <;> rfl
@[simp] theorem State.recompute_draws (t : Nat) : (s.recompute t).draws = s.draws := by
  unfold State.recompute; split <;> rfl
@[simp] theorem State.recompute_deadlineSince (t : Nat) : (s.recompute t).deadlineSince = s.deadlineSince := by
  unfold State.recompute; split <;> rfl

/-- After `Recompute` the line is the aggregate of the state it ran in. -/
@[simp] theorem State.recompute_irqLine (t : Nat) : (s.recompute t).disp.irqLine = s.aggregate := by
  unfold State.recompute
  split
  · next h => exact h.symm
  · rfl

/-- `Recompute` emits one event if the line changes, none if it does not. -/
theorem State.recompute_trace (t : Nat) : (s.recompute t).trace =
    if s.aggregate = s.disp.irqLine then s.trace else s.trace ++ [.notify s.aggregate t] := by
  unfold State.recompute; split <;> rfl

@[simp] theorem State.recompute_aggregate (t : Nat) : (s.recompute t).aggregate = s.aggregate :=
  State.aggregate_congr (by simp) (by simp) (by simp) (by simp)

/-! `Sync`. -/

/-- Whether `Sync(now)` finds a crossing is `AlarmDue` (42_timer.md R175). -/
theorem State.sync_of_not_due (t : Nat) (h : s.alarmDue t = false) :
    s.sync t = (if s.tmr.enabled then s.setTicks (advance s.tmr.ticks (s.delta t)) else s).setBaseline t := by
  unfold State.alarmDue at h
  unfold State.sync
  cases he : s.tmr.enabled <;> simp_all

/-- `Sync` at an instant at which the alarm is due: the count advances, the alarm is raised, the baseline moves. -/
theorem State.sync_of_due (t : Nat) (h : s.alarmDue t = true) :
    s.sync t = ((s.setTicks (advance s.tmr.ticks (s.delta t))).raiseAlarm t).setBaseline t := by
  simp only [State.alarmDue, Bool.and_eq_true] at h
  simp [State.sync, h.1, h.2]

@[simp] theorem State.raiseAlarm_cfg (t : Nat) : (s.raiseAlarm t).cfg = s.cfg := by simp [State.raiseAlarm]
@[simp] theorem State.raiseAlarm_clk (t : Nat) : (s.raiseAlarm t).clk = s.clk := by simp [State.raiseAlarm]
@[simp] theorem State.raiseAlarm_shell (t : Nat) : (s.raiseAlarm t).shell = s.shell := by simp [State.raiseAlarm]
@[simp] theorem State.raiseAlarm_blk (t : Nat) : (s.raiseAlarm t).blk = s.blk := by simp [State.raiseAlarm]
@[simp] theorem State.raiseAlarm_rdata (t : Nat) : (s.raiseAlarm t).rdata = s.rdata := by simp [State.raiseAlarm]
@[simp] theorem State.raiseAlarm_now (t : Nat) : (s.raiseAlarm t).now = s.now := by simp [State.raiseAlarm]
@[simp] theorem State.raiseAlarm_port (t : Nat) : (s.raiseAlarm t).port = s.port := by simp [State.raiseAlarm]
@[simp] theorem State.raiseAlarm_draws (t : Nat) : (s.raiseAlarm t).draws = s.draws := by simp [State.raiseAlarm]
@[simp] theorem State.raiseAlarm_deadlineSince (t : Nat) : (s.raiseAlarm t).deadlineSince = s.deadlineSince := by
  simp [State.raiseAlarm]
@[simp] theorem State.raiseAlarm_tmr (t : Nat) :
    (s.raiseAlarm t).tmr = { s.tmr with pending := s.tmr.pending ||| alarmMask s.cfg } := by simp [State.raiseAlarm]

/-- One case split of `Sync`, for a projection that no branch changes. -/
theorem State.sync_cases (t : Nat) :
    (s.alarmDue t = true ∧ s.tmr.enabled = true ∧
      s.sync t = ((s.setTicks (advance s.tmr.ticks (s.delta t))).raiseAlarm t).setBaseline t) ∨
    (s.alarmDue t = false ∧ s.tmr.enabled = true ∧
      s.sync t = (s.setTicks (advance s.tmr.ticks (s.delta t))).setBaseline t) ∨
    (s.alarmDue t = false ∧ s.tmr.enabled = false ∧ s.sync t = s.setBaseline t) := by
  cases hd : s.alarmDue t
  · cases he : s.tmr.enabled
    · exact .inr (.inr ⟨rfl, rfl, by simpa [he] using s.sync_of_not_due t hd⟩)
    · exact .inr (.inl ⟨rfl, rfl, by simpa [he] using s.sync_of_not_due t hd⟩)
  · refine .inl ⟨rfl, ?_, s.sync_of_due t hd⟩
    simp only [State.alarmDue, Bool.and_eq_true] at hd
    exact hd.1

@[simp] theorem State.sync_cfg (t : Nat) : (s.sync t).cfg = s.cfg := by
  rcases s.sync_cases t with ⟨-, -, h⟩ | ⟨-, -, h⟩ | ⟨-, -, h⟩ <;> simp [h]
@[simp] theorem State.sync_clk (t : Nat) : (s.sync t).clk = s.clk := by
  rcases s.sync_cases t with ⟨-, -, h⟩ | ⟨-, -, h⟩ | ⟨-, -, h⟩ <;> simp [h]
@[simp] theorem State.sync_shell (t : Nat) : (s.sync t).shell = s.shell := by
  rcases s.sync_cases t with ⟨-, -, h⟩ | ⟨-, -, h⟩ | ⟨-, -, h⟩ <;> simp [h]
@[simp] theorem State.sync_blk (t : Nat) : (s.sync t).blk = s.blk := by
  rcases s.sync_cases t with ⟨-, -, h⟩ | ⟨-, -, h⟩ | ⟨-, -, h⟩ <;> simp [h]
@[simp] theorem State.sync_rdata (t : Nat) : (s.sync t).rdata = s.rdata := by
  rcases s.sync_cases t with ⟨-, -, h⟩ | ⟨-, -, h⟩ | ⟨-, -, h⟩ <;> simp [h]
@[simp] theorem State.sync_now (t : Nat) : (s.sync t).now = s.now := by
  rcases s.sync_cases t with ⟨-, -, h⟩ | ⟨-, -, h⟩ | ⟨-, -, h⟩ <;> simp [h]
@[simp] theorem State.sync_port (t : Nat) : (s.sync t).port = s.port := by
  rcases s.sync_cases t with ⟨-, -, h⟩ | ⟨-, -, h⟩ | ⟨-, -, h⟩ <;> simp [h]
@[simp] theorem State.sync_draws (t : Nat) : (s.sync t).draws = s.draws := by
  rcases s.sync_cases t with ⟨-, -, h⟩ | ⟨-, -, h⟩ | ⟨-, -, h⟩ <;> simp [h]
@[simp] theorem State.sync_deadlineSince (t : Nat) : (s.sync t).deadlineSince = s.deadlineSince := by
  rcases s.sync_cases t with ⟨-, -, h⟩ | ⟨-, -, h⟩ | ⟨-, -, h⟩ <;> simp [h]
@[simp] theorem State.sync_enabled (t : Nat) : (s.sync t).tmr.enabled = s.tmr.enabled := by
  rcases s.sync_cases t with ⟨-, -, h⟩ | ⟨-, -, h⟩ | ⟨-, -, h⟩ <;> simp [h]
@[simp] theorem State.sync_mask (t : Nat) : (s.sync t).tmr.mask = s.tmr.mask := by
  rcases s.sync_cases t with ⟨-, -, h⟩ | ⟨-, -, h⟩ | ⟨-, -, h⟩ <;> simp [h]
@[simp] theorem State.sync_mul (t : Nat) : (s.sync t).tmr.mul = s.tmr.mul := by
  rcases s.sync_cases t with ⟨-, -, h⟩ | ⟨-, -, h⟩ | ⟨-, -, h⟩ <;> simp [h]
@[simp] theorem State.sync_div (t : Nat) : (s.sync t).tmr.div = s.tmr.div := by
  rcases s.sync_cases t with ⟨-, -, h⟩ | ⟨-, -, h⟩ | ⟨-, -, h⟩ <;> simp [h]
@[simp] theorem State.sync_alarm (t : Nat) : (s.sync t).tmr.alarm = s.tmr.alarm := by
  rcases s.sync_cases t with ⟨-, -, h⟩ | ⟨-, -, h⟩ | ⟨-, -, h⟩ <;> simp [h]
@[simp] theorem State.sync_baseline (t : Nat) : (s.sync t).tmr.baseline = t := by
  rcases s.sync_cases t with ⟨-, -, h⟩ | ⟨-, -, h⟩ | ⟨-, -, h⟩ <;> simp [h]

/-- The count after `Sync` (42_timer.md R176); while Disabled `Delta` is 0. -/
theorem State.sync_ticks (t : Nat) : (s.sync t).tmr.ticks = advance s.tmr.ticks (s.delta t) := by
  rcases s.sync_cases t with ⟨-, -, h⟩ | ⟨-, -, h⟩ | ⟨-, he, h⟩
  · simp [h]
  · simp [h]
  · simp [h, State.delta, he, advance]

/-- The pending field after `Sync`. -/
theorem State.sync_pending (t : Nat) : (s.sync t).tmr.pending =
    if s.alarmDue t then s.tmr.pending ||| alarmMask s.cfg else s.tmr.pending := by
  rcases s.sync_cases t with ⟨hd, -, h⟩ | ⟨hd, -, h⟩ | ⟨hd, -, h⟩ <;> simp [h, hd]

/-- The line after `Sync`: the aggregate if a crossing was found, else as it was. -/
theorem State.sync_irqLine (t : Nat) : (s.sync t).disp.irqLine =
    if s.alarmDue t then (s.sync t).aggregate else s.disp.irqLine := by
  rcases s.sync_cases t with ⟨hd, -, h⟩ | ⟨hd, -, h⟩ | ⟨hd, -, h⟩
  · simp only [h, hd, if_true]
    rw [State.setBaseline_disp, State.raiseAlarm, State.recompute_irqLine]
    exact State.aggregate_congr (by simp) (by simp) (by simp) (by simp)
  · simp [h, hd]
  · simp [h, hd]

/-- The events `Sync` emits: at most one, when a crossing changes the aggregate. -/
theorem State.sync_trace (t : Nat) : (s.sync t).trace =
    if s.alarmDue t = true ∧ (s.sync t).aggregate ≠ s.disp.irqLine then s.trace ++ [.notify (s.sync t).aggregate t]
    else s.trace := by
  rcases s.sync_cases t with ⟨hd, -, h⟩ | ⟨hd, -, h⟩ | ⟨hd, -, h⟩
  · have ha : ((s.setTicks (advance s.tmr.ticks (s.delta t))).setPending (s.tmr.pending ||| alarmMask s.cfg)).aggregate
        = (s.sync t).aggregate := by
      rw [h]; exact State.aggregate_congr (by simp) (by simp) (by simp) (by simp)
    have hb : (s.sync t).trace = (((s.setTicks (advance s.tmr.ticks (s.delta t))).setPending
        (s.tmr.pending ||| alarmMask s.cfg)).recompute t).trace := by rw [h]; rfl
    rw [hb, State.recompute_trace, ha, hd]
    by_cases hc : (s.sync t).aggregate = s.disp.irqLine <;> simp [hc]
  · simp [h, hd]
  · simp [h, hd]

theorem State.sync_coreFreq (t : Nat) : (s.sync t).coreFreq = s.coreFreq := by simp [State.coreFreq]
theorem State.sync_rateNum (t : Nat) : (s.sync t).rateNum = s.rateNum :=
  State.rateNum_congr (by simp) (by simp) (by simp)
theorem State.sync_rateDen (t : Nat) : (s.sync t).rateDen = s.rateDen := State.rateDen_congr (by simp)

/-- No time has elapsed at the baseline. -/
theorem State.delta_at_baseline : s.delta s.tmr.baseline = 0 := by simp [State.delta]

theorem alarmDist_pos (old : Ticks) (a : Word) : 0 < alarmDist old a := by
  unfold alarmDist; split <;> omega

end Sys2Proof.Machine
end

