-- ==== Sys2Proof/Laws/Memory.lean ====
section
/-! SUPPORT. Every memory operation keeps the canonical form of the stores, and the state at power-on has it (log 5). -/

namespace Sys2Proof.Machine

/-- A register block's words are canonical where the stores are. -/
theorem State.blkAt_wf {s : State} (h : s.storesWf = true) (e : Nat) : (s.blkAt e).wf = true := by
  simp only [State.storesWf, Bool.and_eq_true] at h
  rcases Store.read_mem_or_default (d := ([] : Memory)) s.blk e with hm | hm
  · unfold State.blkAt; rw [hm]; decide
  · exact List.all_eq_true.1 h.2 _ hm

/-- `writeClk` keeps the stores canonical. -/
theorem State.writeClk_storesWf {s : State} (i : Nat) (d : Word) (h : s.storesWf = true) :
    (s.writeClk i d).storesWf = true := by
  simp only [State.storesWf, Bool.and_eq_true, State.writeClk_clk, State.writeClk_shell, State.writeClk_blk] at h ⊢
  exact ⟨⟨⟨Memory.write_wf i d h.1.1.1, h.1.1.2⟩, h.1.2⟩, h.2⟩

/-- `setShell` keeps the stores canonical. -/
theorem State.setShell_storesWf {s : State} (e : Nat) (x : Shell) (h : s.storesWf = true) :
    (s.setShell e x).storesWf = true := by
  simp only [State.storesWf, Bool.and_eq_true, State.setShell_clk, State.setShell_shell, State.setShell_blk] at h ⊢
  exact ⟨⟨⟨h.1.1.1, Store.write_wf e x h.1.1.2⟩, h.1.2⟩, h.2⟩

/-- `writeBlk` keeps the stores canonical. -/
theorem State.writeBlk_storesWf {s : State} (e i : Nat) (d : Word) (h : s.storesWf = true) :
    (s.writeBlk e i d).storesWf = true := by
  have hb := State.blkAt_wf h e
  simp only [State.storesWf, Bool.and_eq_true, State.writeBlk_clk, State.writeBlk_shell, State.writeBlk_blk] at h ⊢
  refine ⟨⟨h.1.1, Store.write_wf e _ h.1.2⟩, ?_⟩
  rw [List.all_eq_true]
  intro q hq
  rcases Store.mem_write hq with hq | hq
  · exact List.all_eq_true.1 h.2 _ hq
  · rw [hq]; exact Memory.write_wf i d hb

/-- `resetStorage` leaves the stores canonical. -/
theorem State.resetStorage_storesWf (s : State) : s.resetStorage.storesWf = true := rfl

/-- The stores are canonical at power-on, `State.reset` among them. -/
theorem State.powerOn_storesWf (c : Cfg) (t : Nat) : (State.powerOn c t).storesWf = true := rfl

end Sys2Proof.Machine
end

