-- ==== Sys2Proof/Laws/Operands.lean ====
section
/-! SUPPORT. The register layouts and the pure functions of the timer as arithmetic on natural numbers. -/

namespace Sys2Proof.Machine

/-- The high view is the count without its low 27 bits (30_encoding.md R96). -/
theorem timeHiView_toNat (t : Ticks) : (timeHiView t).toNat = t.toNat / 2^27 := by
  have := t.isLt
  unfold timeHiView
  rw [BitVec.toNat_append, ← Nat.shiftLeft_add_eq_or_of_lt (BitVec.isLt _)]
  simp only [BitVec.extractLsb'_toNat, Nat.shiftRight_eq_div_pow, Nat.shiftLeft_eq]
  simp; omega

/-- The low view is the low 27 bits of the count, above five zeros (30_encoding.md R95). -/
theorem timeLoView_toNat (t : Ticks) : (timeLoView t).toNat = t.toNat % 2^27 * 2^5 := by
  unfold timeLoView
  rw [BitVec.toNat_append, ← Nat.shiftLeft_add_eq_or_of_lt (BitVec.isLt _)]
  simp only [BitVec.extractLsb'_toNat, Nat.shiftRight_eq_div_pow, Nat.shiftLeft_eq]
  simp

/-- The count after a write of its low half (30_encoding.md R95). -/
theorem withTimeLo_toNat (t : Ticks) (d : Word) : (withTimeLo t d).toNat = t.toNat / 2^27 * 2^27 + d.toNat / 2^5 := by
  unfold withTimeLo
  rw [BitVec.toNat_append]
  have ht := t.isLt
  have hd := d.isLt
  rw [← Nat.shiftLeft_add_eq_or_of_lt (BitVec.isLt _)]
  simp only [BitVec.extractLsb'_toNat, Nat.shiftRight_eq_div_pow, Nat.shiftLeft_eq]
  omega

/-- The count after a write of its high half (30_encoding.md R96). -/
theorem withTimeHi_toNat (t : Ticks) (d : Word) : (withTimeHi t d).toNat = d.toNat % 2^29 * 2^27 + t.toNat % 2^27 := by
  unfold withTimeHi
  rw [BitVec.toNat_append]
  rw [← Nat.shiftLeft_add_eq_or_of_lt (BitVec.isLt _)]
  simp only [BitVec.extractLsb'_toNat, Nat.shiftRight_eq_div_pow, Nat.shiftLeft_eq]
  omega

/-- The distance to the alarm as a natural number (42_timer.md R174). -/
theorem alarmDist_eq (old : Ticks) (alarm : Word) : alarmDist old alarm =
   if old.toNat < alarm.toNat then alarm.toNat - old.toNat else 2^56 + alarm.toNat - old.toNat := by
  unfold alarmDist
  have h1 := old.isLt
  have h2 := alarm.isLt
  rw [BitVec.toNat_sub]
  simp only [BitVec.toNat_setWidth]
  rw [Nat.mod_eq_of_lt (show alarm.toNat < 2^56 by omega)]
  split <;> split <;> omega

/-- `ceilDiv` is the least quotient (42_timer.md R175). -/
theorem ceilDiv_le {a b q : Nat} (hb : 0 < b) : ceilDiv a b ≤ q ↔ a ≤ q * b := by
  unfold ceilDiv
  rw [Nat.div_le_iff_le_mul_add_pred hb]
  rw [Nat.mul_comm]
  omega

/-- The alarm mask is a shifted one (42_timer.md R176). -/
theorem alarmMask_eq (c : Cfg) : alarmMask c = 1#32 <<< c.tmrAlarmBit := by
  unfold alarmMask
  apply BitVec.eq_of_toNat_eq
  simp [Nat.shiftLeft_eq]

/-- The alarm mask has the alarm bit. -/
theorem alarmMask_getLsbD {c : Cfg} (h : c.wf = true) : (alarmMask c).getLsbD c.tmrAlarmBit = true := by
  rw [alarmMask_eq]
  simp [Cfg.alarmBit_lt h]

/-- The count advances modulo 2^56 (42_timer.md R176). -/
theorem advance_toNat (t : Ticks) (d : Nat) : (advance t d).toNat = (t.toNat + d) % 2^56 := by simp [advance]

end Sys2Proof.Machine
end

