-- ==== Sys2Proof/Laws/PerInstr.lean ====
section
/-! SUPPORT. One lemma per operation: the encoder writes a read's absent `wdata` as zero (30_encoding.md R90). -/

namespace Sys2Proof.Laws.EncodeCanonical

/-- The transaction of an operation is canonical under every configuration. -/
def Statement (i : Instr) : Prop := ∀ c : Cfg, (encode c i).canonical = encode c i

theorem rdUnmapped (addr : Word) : Statement (.rdUnmapped addr) := fun _ => rfl
theorem wrUnmapped (addr d : Word) : Statement (.wrUnmapped addr d) := fun _ => rfl
theorem rdClkWord (off : Nat) : Statement (.rdClkWord off) := fun _ => rfl
theorem wrClkWord (off : Nat) (d : Word) : Statement (.wrClkWord off d) := fun _ => rfl
theorem rdClkCore : Statement .rdClkCore := fun _ => rfl
theorem rdClkMem : Statement .rdClkMem := fun _ => rfl
theorem rdClkVid : Statement .rdClkVid := fun _ => rfl
theorem wrClkCore (d : Word) : Statement (.wrClkCore d) := fun _ => rfl
theorem wrClkMem (d : Word) : Statement (.wrClkMem d) := fun _ => rfl
theorem wrClkVid (d : Word) : Statement (.wrClkVid d) := fun _ => rfl
theorem rdClkMisaligned (off : Nat) : Statement (.rdClkMisaligned off) := fun _ => rfl
theorem wrClkMisaligned (off : Nat) (d : Word) : Statement (.wrClkMisaligned off d) := fun _ => rfl
theorem rdTmrIntr : Statement .rdTmrIntr := fun _ => rfl
theorem rdTmrIntrEn : Statement .rdTmrIntrEn := fun _ => rfl
theorem rdTmrMul : Statement .rdTmrMul := fun _ => rfl
theorem rdTmrDiv : Statement .rdTmrDiv := fun _ => rfl
theorem rdTmrTimeLo : Statement .rdTmrTimeLo := fun _ => rfl
theorem rdTmrTimeHi : Statement .rdTmrTimeHi := fun _ => rfl
theorem rdTmrAlarm : Statement .rdTmrAlarm := fun _ => rfl
theorem rdTmrOther (off : Nat) : Statement (.rdTmrOther off) := fun _ => rfl
theorem wrTmrIntr (d : Word) : Statement (.wrTmrIntr d) := fun _ => rfl
theorem wrTmrIntrEn (d : Word) : Statement (.wrTmrIntrEn d) := fun _ => rfl
theorem wrTmrMul (d : Word) : Statement (.wrTmrMul d) := fun _ => rfl
theorem wrTmrDiv (d : Word) : Statement (.wrTmrDiv d) := fun _ => rfl
theorem wrTmrTimeLo (d : Word) : Statement (.wrTmrTimeLo d) := fun _ => rfl
theorem wrTmrTimeHi (d : Word) : Statement (.wrTmrTimeHi d) := fun _ => rfl
theorem wrTmrAlarm (d : Word) : Statement (.wrTmrAlarm d) := fun _ => rfl
theorem wrTmrOther (off : Nat) (d : Word) : Statement (.wrTmrOther off d) := fun _ => rfl
theorem rdBlkWord (e off : Nat) : Statement (.rdBlkWord e off) := fun _ => rfl
theorem wrBlkWord (e off : Nat) (d : Word) : Statement (.wrBlkWord e off d) := fun _ => rfl
theorem rdBlkMisaligned (e off : Nat) : Statement (.rdBlkMisaligned e off) := fun _ => rfl
theorem wrBlkMisaligned (e off : Nat) (d : Word) : Statement (.wrBlkMisaligned e off d) := fun _ => rfl
theorem rdShellIntr (e : Nat) : Statement (.rdShellIntr e) := fun _ => rfl
theorem rdShellIntrEn (e : Nat) : Statement (.rdShellIntrEn e) := fun _ => rfl
theorem wrShellIntr (e : Nat) (d : Word) : Statement (.wrShellIntr e d) := fun _ => rfl
theorem wrShellIntrEn (e : Nat) (d : Word) : Statement (.wrShellIntrEn e d) := fun _ => rfl
theorem rdShellOther (e off : Nat) : Statement (.rdShellOther e off) := fun _ => rfl
theorem wrShellOther (e off : Nat) (d : Word) : Statement (.wrShellOther e off d) := fun _ => rfl
theorem reset : Statement .reset := fun _ => rfl
theorem tmrEnable : Statement .tmrEnable := fun _ => rfl
theorem tmrDisable : Statement .tmrDisable := fun _ => rfl
theorem hwEvent (e : Nat) (bits : Word) : Statement (.hwEvent e bits) := fun _ => rfl
theorem alarmCheck : Statement .alarmCheck := fun _ => rfl

end Sys2Proof.Laws.EncodeCanonical
end

