-- ==== Sys2Proof/Laws/Step.lean ====
section
/-! SUPPORT. What an operation never touches, and what a step can be. -/

namespace Sys2Proof.Machine

/-- An operation changes neither the configuration, nor the clock, the port, the draws and the deadline's instant. -/
theorem exec_sameFrame (i : Instr) (s t : State) (h : exec i s = .next t) : SameFrame s t := by
  cases i
  all_goals
    simp only [exec, execRdUnmapped, execWrUnmapped, execReset, execRdClkWord, execWrClkWord, execRdClkCore,
      execRdClkMem, execRdClkVid, execWrClkCore, execWrClkMem, execWrClkVid, execRdClkMisaligned,
      execWrClkMisaligned, execRdTmrIntr, execRdTmrIntrEn, execRdTmrMul, execRdTmrDiv, execRdTmrTimeLo,
      execRdTmrTimeHi, execRdTmrAlarm, execRdTmrOther, execWrTmrIntr, execWrTmrIntrEn, execWrTmrMul, execWrTmrDiv,
      execWrTmrTimeLo, execWrTmrTimeHi, execWrTmrAlarm, execWrTmrOther, execTmrEnable, execTmrDisable,
      execAlarmCheck, execRdBlkWord, execWrBlkWord, execRdBlkMisaligned, execWrBlkMisaligned, execRdShellIntr,
      execRdShellIntrEn, execWrShellIntr, execWrShellIntrEn, execRdShellOther, execWrShellOther, execHwEvent] at h
    repeat' split at h
    all_goals
      cases h
      try (simp [SameFrame])

/-- Tracking goes on exactly where the operation does, and changes the deadline's instant alone. -/
theorem State.track_next {s t : State} {o : Host.Outcome State Fault Refusal} :
    s.track o = .next t ↔ ∃ u, o = .next u ∧ t = u.tracked s := by
  cases o <;> simp [State.track, eq_comm]

/-- A state's deadline does not depend on the instant from which it has stood. -/
@[simp] theorem State.tracked_deadline (u s : State) : (u.tracked s).deadline = u.deadline := rfl

/-- The interrupt conditions do not depend on the instant from which the deadline has stood. -/
@[simp] theorem State.tracked_aggregate (u s : State) : (u.tracked s).aggregate = u.aggregate := rfl

/-- A step that goes on waits, or is the monitor's, or performs the operation at the head of the port, which does not come
after the monitor's latest instant. -/
theorem step_cases (s t : State) (h : step s = .next t) : s.cfg.wf = true ∧ (t = s ∨
    (∃ d u, s.deadline = some d ∧ exec .alarmCheck (s.monitorAt (s.monitorInstant d)) = .next u ∧ t = u.tracked s ∧
      (s.port = [] ∨ ∃ r rest, s.port = r :: rest ∧ s.latestCheck d < r.instant)) ∨
    (∃ r rest i u, s.port = r :: rest ∧ s.now ≤ r.instant ∧ decode s.cfg r.packet = .ok i ∧
      exec i (s.begin r rest) = .next u ∧ t = u.tracked s ∧
      ∀ d, s.deadline = some d → r.instant ≤ s.latestCheck d)) := by
  unfold step at h
  split at h
  · cases h
  · next hw =>
    refine ⟨by simpa using hw, ?_⟩
    split at h
    · cases h; exact .inl rfl
    · next d hp hd =>
      obtain ⟨u, hu, ht⟩ := State.track_next.mp h
      exact .inr (.inl ⟨d, u, hd, hu, ht, .inl hp⟩)
    · next r rest hp hd =>
      split at h
      · cases h
      · next hn =>
        unfold State.perform at h
        split at h
        · next i hi =>
          obtain ⟨u, hu, ht⟩ := State.track_next.mp h
          exact .inr (.inr ⟨r, rest, i, u, hp, by omega, hi, hu, ht, fun d h => by rw [hd] at h; cases h⟩)
        · cases h
    · next r rest d hp hd =>
      split at h
      · cases h
      · next hn =>
        split at h
        · next ho =>
          obtain ⟨u, hu, ht⟩ := State.track_next.mp h
          exact .inr (.inl ⟨d, u, hd, hu, ht, .inr ⟨r, rest, hp, by simpa [State.overdue] using ho⟩⟩)
        · next ho =>
          unfold State.perform at h
          split at h
          · next i hi =>
            obtain ⟨u, hu, ht⟩ := State.track_next.mp h
            refine .inr (.inr ⟨r, rest, i, u, hp, by omega, hi, hu, ht, fun d' h' => ?_⟩)
            rw [hd] at h'; cases h'
            simpa [State.overdue] using ho
          · cases h

/-- One more event that changes the level keeps the alternation (40_dispatcher.md R130). -/
theorem lineAfter_append (es : List Event) : ∀ (l m : Bool) (b : Bool) (t : Nat),
    lineAfter l es = some m → b ≠ m → lineAfter l (es ++ [.notify b t]) = some b := by
  induction es with
  | nil => intro l m b t h hb; cases h; simp [lineAfter, hb]
  | cons e es ih =>
    intro l m b t h hb
    cases e with | notify c u =>
    simp only [lineAfter, List.cons_append] at h ⊢
    split at h
    · cases h
    · next hc => rw [if_neg hc]; exact ih _ _ _ _ h hb

end Sys2Proof.Machine
end

