-- ==== Sys2Proof/Tests/Slice0.lean ====
section
/-! SUPPORT. Smoke tests of the well-formedness checks, one written-out transaction per operation, one-step tests from the
vectors of spec/95_test_vectors.md, and for every obligation with hypotheses a state and operands that meet them. -/

namespace Sys2Proof.Tests

open Sys2Proof Sys2Proof.Machine

/-! Helpers. -/

/-- What `f` reads in the next state; none for a fault or a refusal. -/
def after {α : Type} (r : Host.Outcome State Fault Refusal) (f : State → α) : Option α :=
  match r with
  | .next t => some (f t)
  | .fault _ => none
  | .refused _ => none

/-- The operation a packet decodes to under the reference configuration. -/
def dec (addr wdata : Word) (ctl : BitVec 8) : Option Instr :=
  match decode refCfg { addr := addr, wdata := wdata, ctl := ctl } with
  | .ok i => some i
  | .error _ => none

/-- Whether a packet is refused as `e`. -/
def refusedAs (addr wdata : Word) (ctl : BitVec 8) (e : DecodeError) : Bool :=
  match decode refCfg { addr := addr, wdata := wdata, ctl := ctl } with
  | .ok _ => false
  | .error f => decide (f = e)

/-- The reference configuration with other engines. -/
def withEngines (es : List Engine) : Cfg := { refCfg with engines := es }

/-- A timer, a clock generator and a register block of this window. -/
def plusBlock (base size : Nat) : Cfg := withEngines
  [⟨"T", .timer, 0x9000, 0x1000⟩, ⟨"C", .clkGen, 0x680000, 0x1000⟩, ⟨"B", .regBlock, base, size⟩]

/-- Whether a check of R8, and with it well-formedness, rejects a configuration. -/
def rejects (check : Cfg → Bool) (c : Cfg) : Bool := !check c && !c.wf

/-- The reference block with CLK_CORE = 0x00010A05 (16666667 Hz) at instant `now`, and this timer. -/
def timed (now : Nat) (tmr : Tmr) : State :=
  { State.powerOn refCfg now with clk := { word := [(0x140, 0x00010A05)] }, tmr := tmr }

/-- SETUP(mul, div) of spec/95_test_vectors.md with a count and an alarm, enabled at 0. -/
def running (now : Nat) (mul div alarm : Word) (ticks : Ticks) : State :=
  timed now ⟨true, 0, 0, mul, div, alarm, ticks, 0⟩

/-- ALARM1000 of spec/95_test_vectors.md: mask 1, alarm 1000, rate 16666667 per second, enabled at 0. -/
def alarm1000 (now : Nat) : State := timed now ⟨true, 0, 1, 1, 1, 1000, 0, 0⟩

/-- The same after its alarm fired at 60000 (program P2). -/
def fired (now : Nat) : State :=
  { timed now ⟨true, 1, 1, 1, 1, 1000, 1000, 60000⟩ with
    disp := { irqLine := true }, trace := [.notify true 60000] }

/-- ALARM1000 while CLK_CORE is 0: no deadline. -/
def stopped (now : Nat) : State := { alarm1000 now with clk := { word := [] } }

/-- ALARM1000 whose deadline 60000 arose at 2000000, when 60000 + ALARM_LATENCY was over (log 17). -/
def lapsed (now : Nat) : State := { alarm1000 now with deadlineSince := 2000000 }

/-- The reference block with one pair in its FIFO shell. -/
def shelled (now : Nat) (line : Bool) (pending mask : Word) : State :=
  { State.powerOn refCfg now with shell := [(0, ⟨pending, mask⟩)], disp := { irqLine := line } }

/-- A state with one request at the head of its port. -/
def asked (s : State) (t : Nat) (addr wdata : Word) (ctl : BitVec 8) : State :=
  { s with port := [⟨t, ⟨addr, wdata, ctl⟩⟩] }

/-- A block with one large window of 2^32 - 0x9000 bytes for the edge of the address space. -/
def edgeCfg : Cfg := withEngines
  [⟨"T", .timer, 0x0, 0x1000⟩, ⟨"C", .clkGen, 0x8000, 0x1000⟩, ⟨"B", .regBlock, 0x9000, 0xFFFF7000⟩]

/-! Well-formed configurations (00_scope.md R8): one ill-formed term for each check. -/

/-- 10_state.md R24 and a window that ends at 2^32. -/
theorem test_wf_reference : refCfg.wf = true ∧ edgeCfg.wf = true := by decide

/-- R8 (a): size 0. -/
theorem test_wf_empty_window : rejects Cfg.windowsOk (plusBlock 0x1000 0) = true := by decide

/-- R8 (a): base + size above 2^32. -/
theorem test_wf_past_the_end : rejects Cfg.windowsOk (plusBlock 0xFFFFF000 0x1004) = true := by decide

/-- R8 (c): base no multiple of 4. -/
theorem test_wf_misaligned_window : rejects Cfg.windowsOk (plusBlock 0x1002 0x1000) = true := by decide

/-- R8 (c): size no multiple of 4. -/
theorem test_wf_misaligned_size : rejects Cfg.windowsOk (plusBlock 0x1000 0x1002) = true := by decide

/-- R8 (b): two windows share a word. -/
theorem test_wf_overlap : rejects Cfg.disjoint (plusBlock 0x9FFC 0x1000) = true := by decide

/-- R8 (d): no timer. -/
theorem test_wf_no_timer : rejects Cfg.singletons (withEngines [⟨"C", .clkGen, 0x680000, 0x1000⟩]) = true := by decide

/-- R8 (d): two timers. -/
theorem test_wf_two_timers :
    rejects Cfg.singletons (withEngines [
      ⟨"T", .timer, 0x9000, 0x1000⟩, ⟨"U", .timer, 0x20000, 0x1000⟩, ⟨"C", .clkGen, 0x680000, 0x1000⟩]) = true :=
  by decide

/-- R8 (d): no clock generator. -/
theorem test_wf_no_clkgen : rejects Cfg.singletons (withEngines [⟨"T", .timer, 0x9000, 0x1000⟩]) = true := by decide

/-- R8 (e): an offset no multiple of 4. -/
theorem test_wf_misaligned_offset : rejects Cfg.offsetsOk ({ refCfg with tmrMulOff := 0x202 }) = true := by decide

/-- R8 (e): an offset that is the size of its window. -/
theorem test_wf_offset_outside : rejects Cfg.offsetsOk ({ refCfg with shellIntrEnOff := 0x2000 }) = true := by decide

/-- R8 (e): two equal offsets of one kind. -/
theorem test_wf_equal_offsets : rejects Cfg.offsetsOk ({ refCfg with clkVidOff := 0x500 }) = true := by decide

/-- R8 (f): no time unit. -/
theorem test_wf_zero_tu : rejects Cfg.paramsOk ({ refCfg with tu := 0 }) = true := by decide

/-- R8 (f): the alarm bit outside the word. -/
theorem test_wf_alarm_bit_outside : rejects Cfg.paramsOk ({ refCfg with tmrAlarmBit := 32 }) = true := by decide

/-- R8 (g): two engines of one name. -/
theorem test_wf_equal_names :
    rejects Cfg.namesOk (withEngines [⟨"T", .timer, 0x9000, 0x1000⟩, ⟨"T", .clkGen, 0x680000, 0x1000⟩]) = true :=
  by decide

/-! Well-formed operations: an ill-formed operand for each check. -/

/-- An address inside a window. -/
theorem test_operand_unmapped : Instr.wf refCfg (.rdUnmapped 0x2000) = false ∧
      Instr.wf refCfg (.wrUnmapped 0x3FFF 0) = false := by decide

/-- A coefficient word, a misaligned offset, an offset outside the window. -/
theorem test_operand_clk_word : Instr.wf refCfg (.rdClkWord 0x500) = false ∧
      Instr.wf refCfg (.wrClkWord 0x508 0) = false ∧
      Instr.wf refCfg (.rdClkWord 0x501) = false ∧
      Instr.wf refCfg (.wrClkWord 0x1000 0) = false := by decide

/-- An aligned offset, an offset outside the window. -/
theorem test_operand_clk_misaligned : Instr.wf refCfg (.rdClkMisaligned 0x500) = false ∧
      Instr.wf refCfg (.wrClkMisaligned 0x1001 0) = false := by decide

/-- A timer register, an offset outside the window. -/
theorem test_operand_tmr_other : Instr.wf refCfg (.rdTmrOther 0x400) = false ∧
      Instr.wf refCfg (.wrTmrOther 0x420 0) = false ∧
      Instr.wf refCfg (.rdTmrOther 0x1000) = false := by decide

/-- Another kind, misaligned, outside, aligned, another kind. -/
theorem test_operand_blk : Instr.wf refCfg (.rdBlkWord 3 0) = false ∧
      Instr.wf refCfg (.wrBlkWord 2 2 0) = false ∧
      Instr.wf refCfg (.rdBlkWord 2 0x1000) = false ∧
      Instr.wf refCfg (.rdBlkMisaligned 2 4) = false ∧
      Instr.wf refCfg (.wrBlkMisaligned 0 1 0) = false := by decide

/-- An engine that is no interrupt shell, or no engine. -/
theorem test_operand_shell : Instr.wf refCfg (.rdShellIntr 1) = false ∧
      Instr.wf refCfg (.wrShellIntr 4 0) = false ∧
      Instr.wf refCfg (.rdShellIntrEn 2) = false ∧
      Instr.wf refCfg (.wrShellIntrEn 3 0) = false ∧
      Instr.wf refCfg (.hwEvent 1 0) = false := by decide

/-- A shell register, outside, another kind. -/
theorem test_operand_shell_other : Instr.wf refCfg (.rdShellOther 0 0x100) = false ∧
      Instr.wf refCfg (.wrShellOther 0 0x140 0) = false ∧
      Instr.wf refCfg (.rdShellOther 0 0x2000) = false ∧
      Instr.wf refCfg (.rdShellOther 2 0) = false := by decide

/-! Every operation from a transaction written out from the map of 10_state.md R24 (we = 0 is tag 0, we = 1 tag 1; the
other tags are those of log 2). -/

/-- V1, V4, V5, V8, V9, V12, V13, V16, V17. -/
theorem test_decode_unmapped : dec 0x00001FFF 0 0 = some (.rdUnmapped 0x00001FFF) ∧
      dec 0x00004000 0 0 = some (.rdUnmapped 0x00004000) ∧
      dec 0x00008FFF 0 0 = some (.rdUnmapped 0x00008FFF) ∧
      dec 0x0000A000 0 0 = some (.rdUnmapped 0x0000A000) ∧
      dec 0x00100FFF 0 0 = some (.rdUnmapped 0x00100FFF) ∧
      dec 0x00102000 0 0 = some (.rdUnmapped 0x00102000) ∧
      dec 0x0067FFFF 0 0 = some (.rdUnmapped 0x0067FFFF) ∧
      dec 0x00681000 0 0 = some (.rdUnmapped 0x00681000) ∧
      dec 0x00000000 0xFFFFFFFF 1 = some (.wrUnmapped 0x00000000 0xFFFFFFFF) ∧
      dec 0xFFFFFFFC 0xFFFFFFFF 1 = some (.wrUnmapped 0xFFFFFFFC 0xFFFFFFFF) := by decide

/-- V14, V15, V36 to V39. -/
theorem test_decode_clk_read : dec 0x00680000 0 0 = some (.rdClkWord 0) ∧
      dec 0x00680FFC 0 0 = some (.rdClkWord 0xFFC) ∧
      dec 0x00680500 0 0 = some .rdClkCore ∧
      dec 0x00680504 0 0 = some .rdClkMem ∧
      dec 0x00680508 0 0 = some .rdClkVid ∧
      dec 0x00680FFF 0 0 = some (.rdClkMisaligned 0xFFF) ∧
      dec 0x00680501 0 0 = some (.rdClkMisaligned 0x501) := by decide +kernel

/-- V14, V36 to V39. -/
theorem test_decode_clk_write : dec 0x00680000 0xCAFEF00D 1 = some (.wrClkWord 0 0xCAFEF00D) ∧
      dec 0x00680500 0x00010A05 1 = some (.wrClkCore 0x00010A05) ∧
      dec 0x00680504 0x00000A05 1 = some (.wrClkMem 0x00000A05) ∧
      dec 0x00680508 0x00031901 1 = some (.wrClkVid 0x00031901) ∧
      dec 0x00680501 0x00010A05 1 = some (.wrClkMisaligned 0x501 0x00010A05) := by decide +kernel

/-- The register map of REFCFG; V6, V7, 42_timer.md R184. -/
theorem test_decode_tmr_read : dec 0x00009100 0 0 = some .rdTmrIntr ∧
      dec 0x00009140 0 0 = some .rdTmrIntrEn ∧
      dec 0x00009200 0 0 = some .rdTmrMul ∧
      dec 0x00009210 0 0 = some .rdTmrDiv ∧
      dec 0x00009400 0 0 = some .rdTmrTimeLo ∧
      dec 0x00009410 0 0 = some .rdTmrTimeHi ∧
      dec 0x00009420 0 0 = some .rdTmrAlarm ∧
      dec 0x00009000 0 0 = some (.rdTmrOther 0) ∧
      dec 0x00009FFF 0 0 = some (.rdTmrOther 0xFFF) ∧
      dec 0x00009401 0 0 = some (.rdTmrOther 0x401) := by decide +kernel

/-- Programs P1 to P3, V19. -/
theorem test_decode_tmr_write : dec 0x00009100 0x1 1 = some (.wrTmrIntr 1) ∧
      dec 0x00009140 0x1 1 = some (.wrTmrIntrEn 1) ∧
      dec 0x00009200 0x3 1 = some (.wrTmrMul 3) ∧
      dec 0x00009210 0x2 1 = some (.wrTmrDiv 2) ∧
      dec 0x00009400 0x20 1 = some (.wrTmrTimeLo 0x20) ∧
      dec 0x00009410 0x1 1 = some (.wrTmrTimeHi 1) ∧
      dec 0x00009420 0x3E8 1 = some (.wrTmrAlarm 1000) ∧
      dec 0x00009404 0xFFFFFFFF 1 = some (.wrTmrOther 0x404 0xFFFFFFFF) := by decide +kernel

/-- V10, V11, V18, V150. -/
theorem test_decode_blk : dec 0x00101000 0 0 = some (.rdBlkWord 2 0) ∧
      dec 0x00101FFC 0 0 = some (.rdBlkWord 2 0xFFC) ∧
      dec 0x00101FFF 0 0 = some (.rdBlkMisaligned 2 0xFFF) ∧
      dec 0x00101000 0x12345678 1 = some (.wrBlkWord 2 0 0x12345678) ∧
      dec 0x00101001 0xFFFFFFFF 1 = some (.wrBlkMisaligned 2 1 0xFFFFFFFF) := by decide +kernel

/-- V2, V3, program P4, V158. -/
theorem test_decode_shell : dec 0x00002100 0 0 = some (.rdShellIntr 0) ∧
      dec 0x00002140 0 0 = some (.rdShellIntrEn 0) ∧
      dec 0x00002000 0 0 = some (.rdShellOther 0 0) ∧
      dec 0x00003FFF 0 0 = some (.rdShellOther 0 0x1FFF) ∧
      dec 0x00002100 0x1 1 = some (.wrShellIntr 0 1) ∧
      dec 0x00002140 0xB 1 = some (.wrShellIntrEn 0 0xB) ∧
      dec 0x00002101 0xFFFFFFFF 1 = some (.wrShellOther 0 0x101 0xFFFFFFFF) := by decide +kernel

/-- The tags and operands of log 2. -/
theorem test_decode_environment : dec 0 0 2 = some .reset ∧
      dec 0 0 3 = some .tmrEnable ∧
      dec 0 0 4 = some .tmrDisable ∧
      dec 0x00002000 0xB 5 = some (.hwEvent 0 0xB) ∧
      dec 0 0 6 = some .alarmCheck := by decide

/-- What is no operation is refused by name. -/
theorem test_decode_refuses : refusedAs 0 0 7 (.unknownTag 7) = true ∧ refusedAs 4 0 2 (.strayOperand 2) = true ∧
      refusedAs 0 1 6 (.strayOperand 6) = true ∧ refusedAs 0x00009000 1 5 (.noSuchShell 0x00009000) = true ∧
      refusedAs 0x00002004 1 5 (.noSuchShell 0x00002004) = true := by decide

/-- The low 32 bits of a transaction are its address (30_encoding.md R104). -/
theorem test_decode_table_word :
    decodeTableWord 32 0x00009410 = some .rdTmrTimeHi ∧
      decodeTableWord 32 (bitsOfPacket { addr := 0x00101001, wdata := 5, ctl := 1 }) = some (.rdBlkMisaligned 2 1) :=
  by decide +kernel

/-- The placed operation is the first that runs. -/
theorem test_withFetchWord_runs_first :
    after (step (State.reset.withFetchWord 32 0x00680504))
      (fun t => (t.rdata, t.port, t.now)) =
      some (some 0, [], 0) ∧
      after (step (State.reset.withFetchWord 72 (bitsOfPacket { addr := 0x00009200, wdata := 7, ctl := 1 }))) (·.tmr.mul) =
        some 7 :=
  by decide

/-! Meanings. -/

/-- V20, the source's example S1. -/
theorem test_pll_source_example : pllFreq refCfg 0x00010A05 = 16666667 := by decide

/-- V21, V22, V24, V28, V30 to V33, V35. -/
theorem test_pll_vectors : pllFreq refCfg 0x00000A05 = 33333334 ∧ pllFreq refCfg 0x00031901 = 52083334 ∧
      pllFreq refCfg 0x00020F03 = 20833333 ∧ pllFreq refCfg 0x0007FFFF = 130208 ∧
      pllFreq refCfg 0x0000FF01 = 4250000085 ∧ pllFreq refCfg 0xFFF90A05 = 16666667 ∧
      pllFreq refCfg 0x00010A00 = 83333335 ∧ pllFreq refCfg 0x00070001 = 0 ∧ pllFreq refCfg 0 = 0 := by decide

/-- V61, V62, V64, V66, V67, V69. -/
theorem test_delta_vectors : (running 0 1 1 0 0).delta 59 = 0 ∧ (running 0 1 1 0 0).delta 60 = 1 ∧
      (running 0 3 2 0 0).delta 1000000000 = 25000000 ∧ (running 0 2 0 0 0).delta 1000000000 = 33333334 ∧
      (running 0 0 5 0 0).delta 1000000000 = 0 ∧
      (running 0 0xFFFFFFFF 1 0 0).delta 1000000000 = 71582789681655765 := by decide

/-- V81 to V84, V86, V88, V90, V91. -/
theorem test_crosses_vectors :
    crosses 0 (2 ^ 56 - 1) 0 = false ∧ crosses 0 (2 ^ 56) 0 = true ∧ crosses 0 999 1000 = false ∧
      crosses 0 1000 1000 = true ∧ crosses 1000 5 1000 = false ∧ crosses (BitVec.ofNat 56 (2 ^ 56 - 1)) 1 0 = true ∧
      crosses (BitVec.ofNat 56 (2 ^ 56 - 5)) 10 3 = true ∧ crosses (BitVec.ofNat 56 (2 ^ 32)) 1000000 5 = false :=
  by decide

/-- V100, V104 to V106, V109, V110. -/
theorem test_deadline_vectors : (alarm1000 0).deadline = some 60000 ∧ (running 0 3 2 1000 0).deadline = some 40000 ∧
      (running 0 1 0 1000 0).deadline = some 60000 ∧ (running 0 0 5 10 0).deadline = none ∧
      (timed 70000 ⟨true, 0, 0, 1, 1, 5000, 1166, 70000⟩).deadline = some 300040 ∧
      (running 0 1 1 0 0).deadline = some 4323455555806565044 := by decide

/-- V43 to V45, V47. -/
theorem test_aggregate_vectors :
    (shelled 0 false 0xA 5).aggregate = false ∧ (shelled 0 false 0xA 2).aggregate = true ∧
      (timed 0 ⟨true, 1, 1, 0, 0, 0, 0, 0⟩).aggregate = true ∧
      (timed 0 ⟨true, 1, 0xFFFFFFFE, 0, 0, 0, 0, 0⟩).aggregate = false := by decide

/-- V4. -/
theorem test_rd_unmapped : after (exec (.rdUnmapped 0x00004000) State.reset) (·.rdata) = some (some 0) := by decide

/-- V17. -/
theorem test_wr_unmapped :
    after (exec (.wrUnmapped 0xFFFFFFFC 0xFFFFFFFF) State.reset) (fun t => decide (t = State.reset)) = some true :=
  by decide

/-- V14. -/
theorem test_rd_clk_word :
    after (exec (.rdClkWord 0) { State.reset with clk := { word := [(0, 0xCAFEF00D)] } }) (·.rdata) =
      some (some 0xCAFEF00D) :=
  by decide

/-- V14. -/
theorem test_wr_clk_word :
    after (exec (.wrClkWord 0 0xCAFEF00D) State.reset) (·.clk.word) = some [(0, 0xCAFEF00D)] := by decide

/-- 41_clockgen.md R151. -/
theorem test_rd_clk_core : after (exec .rdClkCore (running 0 1 1 0 0)) (·.rdata) = some (some 0x00010A05) := by decide

/-- V37: CLK_CORE is not CLK_MEM. -/
theorem test_rd_clk_mem : after (exec .rdClkMem (running 0 1 1 0 0)) (·.rdata) = some (some 0) := by decide

/-- V37. -/
theorem test_rd_clk_vid :
    after (exec .rdClkVid { State.reset with clk := { word := [(0x142, 0x00031901)] } }) (·.rdata) =
      some (some 0x00031901) :=
  by decide

/-- V144: no Sync. -/
theorem test_wr_clk_core :
    after (exec (.wrClkCore 0x00000A05) (running 1000000000 1 1 0 0))
      (fun t => (t.coreFreq, t.tmr.ticks, t.tmr.baseline)) =
      some (33333334, 0, 0) :=
  by decide

/-- V37. -/
theorem test_wr_clk_mem :
    after (exec (.wrClkMem 0x00000A05) State.reset) (fun t => (t.memFreq, t.coreFreq)) = some (33333334, 0) :=
  by decide

/-- V37. -/
theorem test_wr_clk_vid :
    after (exec (.wrClkVid 0x00031901) State.reset) (fun t => (t.vidFreq, t.memFreq)) = some (52083334, 0) :=
  by decide

/-- 41_clockgen.md R153. -/
theorem test_rd_clk_misaligned :
    after (exec (.rdClkMisaligned 0x501) (running 0 1 1 0 0)) (·.rdata) = some (some 0) := by decide

/-- V39. -/
theorem test_wr_clk_misaligned :
    after (exec (.wrClkMisaligned 0x501 0x00010A05) State.reset) (·.coreFreq) = some 0 := by decide

/-- 70_reset_and_hazards.md R283: no Sync. -/
theorem test_rd_tmr_intr :
    after (exec .rdTmrIntr (alarm1000 60001)) (fun t => (t.rdata, t.tmr.baseline)) = some (some 0, 0) := by decide

/-- 42_timer.md R178. -/
theorem test_rd_tmr_intr_en : after (exec .rdTmrIntrEn (alarm1000 0)) (·.rdata) = some (some 1) := by decide

/-- 42_timer.md R179. -/
theorem test_rd_tmr_mul : after (exec .rdTmrMul (running 0 3 2 0 0)) (·.rdata) = some (some 3) := by decide

/-- V130: the stored divisor stays 0. -/
theorem test_rd_tmr_div : after (exec .rdTmrDiv (running 1000000000 2 0 0 0)) (·.rdata) = some (some 0) := by decide

/-- Program P1. -/
theorem test_rd_tmr_time_lo :
    after (exec .rdTmrTimeLo (running 1000000000 1 1 0 0)) (fun t => (t.rdata, t.tmr.baseline)) =
      some (some 0x1FCA0560, 1000000000) :=
  by decide

/-- V136. -/
theorem test_rd_tmr_time_lo_fires :
    after (exec .rdTmrTimeLo (alarm1000 1000000000)) (fun t => (t.tmr.pending, t.trace)) =
      some (1, [.notify true 1000000000]) :=
  by decide

/-- V127. -/
theorem test_rd_tmr_time_hi :
    after (exec .rdTmrTimeHi (timed 5 ⟨false, 0, 0, 0, 0, 0, 150000003, 0⟩)) (·.rdata) = some (some 1) := by decide

/-- 42_timer.md R183. -/
theorem test_rd_tmr_alarm : after (exec .rdTmrAlarm (alarm1000 0)) (·.rdata) = some (some 1000) := by decide

/-- 42_timer.md R184. -/
theorem test_rd_tmr_other :
    after (exec (.rdTmrOther 0x404) (alarm1000 70000)) (fun t => (t.rdata, t.tmr.pending)) = some (some 0, 0) :=
  by decide

/-- Program P2. -/
theorem test_wr_tmr_intr :
    after (exec (.wrTmrIntr 1) (fired 60020)) (fun t => (t.tmr.pending, t.trace)) =
      some (0, [.notify true 60000, .notify false 60020]) :=
  by decide

/-- V129. -/
theorem test_wr_tmr_intr_sets_nothing :
    after (exec (.wrTmrIntr 0xFFFFFFFF) State.reset) (·.tmr.pending) = some 0 := by decide

/-- V146. -/
theorem test_wr_tmr_intr_en :
    after (exec (.wrTmrIntrEn 1) (timed 500 ⟨true, 1, 0, 1, 1, 3, 3, 180⟩)) (fun t => (t.tmr.mask, t.trace)) =
      some (1, [.notify true 500]) :=
  by decide

/-- Program P3. -/
theorem test_wr_tmr_mul :
    after (exec (.wrTmrMul 3) (running 500000000 1 1 0 0)) (fun t => (t.tmr.mul, t.tmr.ticks, t.tmr.baseline)) =
      some (3, 8333333, 500000000) :=
  by decide

/-- Program P3. -/
theorem test_wr_tmr_div :
    after (exec (.wrTmrDiv 2) (timed 1000000000 ⟨true, 0, 0, 3, 1, 0, 8333333, 500000000⟩))
      (fun t => (t.tmr.div, t.tmr.ticks)) =
      some (2, 33333333) :=
  by decide

/-- V120. -/
theorem test_wr_tmr_time_lo :
    after (exec (.wrTmrTimeLo 0xFFFFFFFF) State.reset) (·.tmr.ticks) = some 0x7FFFFFF := by decide

/-- V137. -/
theorem test_wr_tmr_time_lo_raises_nothing :
    after (exec (.wrTmrTimeLo 0x0000FA00) (alarm1000 0)) (fun t => (t.tmr.ticks, t.tmr.pending)) = some (2000, 0) :=
  by decide

/-- V121. -/
theorem test_wr_tmr_time_hi :
    after (exec (.wrTmrTimeHi 0xFFFFFFFF) (timed 0 ⟨false, 0, 0, 0, 0, 0, 0x7FFFFFF, 0⟩)) (·.tmr.ticks) =
      some 0xFFFFFFFFFFFFFF :=
  by decide

/-- V140. -/
theorem test_wr_tmr_alarm :
    after (exec (.wrTmrAlarm 5000) (alarm1000 70000)) (fun t => (t.tmr.alarm, t.tmr.ticks, t.tmr.pending)) =
      some (5000, 1166, 1) :=
  by decide

/-- V19. -/
theorem test_wr_tmr_other :
    after (exec (.wrTmrOther 0x404 0xFFFFFFFF) State.reset) (·.tmr.ticks) = some 0 := by decide

/-- Program P4. -/
theorem test_tmr_enable :
    after (exec .tmrEnable (timed 3 ⟨false, 0, 1, 1, 1, 5, 0, 0⟩)) (·.tmr) = some ⟨true, 0, 1, 1, 1, 5, 0, 3⟩ :=
  by decide

/-- V141. -/
theorem test_tmr_enable_twice :
    after (exec .tmrEnable (running 500000000 1 1 0 0)) (·.tmr.baseline) = some 0 := by decide

/-- 42_timer.md R194. -/
theorem test_tmr_disable :
    after (exec .tmrDisable (fired 60020)) (fun t => (t.tmr, t.trace)) =
      some (⟨false, 0, 0, 0, 0, 0, 0, 60020⟩, [.notify true 60000, .notify false 60020]) :=
  by decide

/-- V142. -/
theorem test_tmr_disable_twice :
    after (exec .tmrDisable (timed 5 ⟨false, 0, 0, 1, 1, 0x4D, 0, 0⟩)) (·.tmr.alarm) = some 0x4D := by decide

/-- Program P2. -/
theorem test_alarm_check :
    after (exec .alarmCheck (alarm1000 60000)) (fun t => (t.tmr.ticks, t.tmr.pending, t.trace)) =
      some (1000, 1, [.notify true 60000]) :=
  by decide

/-- Program P2: no step before 60000. -/
theorem test_alarm_check_early : exec .alarmCheck (alarm1000 59999) = .refused .alarmNotDue := rfl

/-- V10. -/
theorem test_rd_blk_word :
    after (exec (.rdBlkWord 2 0) { State.reset with blk := [(2, [(0, 0x12345678)])] }) (·.rdata) =
      some (some 0x12345678) :=
  by decide

/-- V152. -/
theorem test_wr_blk_word :
    after (exec (.wrBlkWord 2 4 2) { State.reset with blk := [(2, [(0, 1)])] }) (·.blk) =
      some [(2, [(0, 1), (1, 2)])] :=
  by decide

/-- The canonical form: a zero word is not listed. -/
theorem test_wr_blk_word_zero :
    after (exec (.wrBlkWord 2 0 0) { State.reset with blk := [(2, [(0, 1)])] }) (·.blk) = some [] := by decide

/-- V11. -/
theorem test_rd_blk_misaligned :
    after (exec (.rdBlkMisaligned 2 0xFFF) { State.reset with blk := [(2, [(0x3FF, 7)])] }) (·.rdata) =
      some (some 0) :=
  by decide

/-- V18. -/
theorem test_wr_blk_misaligned :
    after (exec (.wrBlkMisaligned 2 1 0xFFFFFFFF) State.reset) (·.blk) = some [] := by decide

/-- V48. -/
theorem test_rd_shell_intr :
    after (exec (.rdShellIntr 0) (shelled 1 false 0xB 0)) (·.rdata) = some (some 0xB) := by decide

/-- 43_shell_engines.md R228. -/
theorem test_rd_shell_intr_en :
    after (exec (.rdShellIntrEn 0) (shelled 1 false 0 0xB)) (·.rdata) = some (some 0xB) := by decide

/-- Program P4, S2. -/
theorem test_wr_shell_intr :
    after (exec (.wrShellIntr 0 1) (shelled 2 true 0xB 0xB)) (fun t => (t.shellAt 0, t.trace)) =
      some (⟨0xA, 0xB⟩, []) :=
  by decide

/-- V53. -/
theorem test_wr_shell_intr_all :
    after (exec (.wrShellIntr 0 0xFFFFFFFF) (shelled 6 true 8 8)) (fun t => (t.shellAt 0, t.trace)) =
      some (⟨0, 8⟩, [.notify false 6]) :=
  by decide

/-- V50. -/
theorem test_wr_shell_intr_en :
    after (exec (.wrShellIntrEn 0 8) (shelled 3 false 0xB 4)) (fun t => (t.shellAt 0, t.trace)) =
      some (⟨0xB, 8⟩, [.notify true 3]) :=
  by decide

/-- V153. -/
theorem test_rd_shell_other :
    after (exec (.rdShellOther 0 0) (shelled 0 false 1 1)) (·.rdata) = some (some 0) := by decide

/-- V158. -/
theorem test_wr_shell_other :
    after (exec (.wrShellOther 0 0x101 0xFFFFFFFF) (shelled 0 false 1 0)) (·.shellAt 0) = some ⟨1, 0⟩ := by decide

/-- 43_shell_engines.md R232. -/
theorem test_hw_event :
    after (exec (.hwEvent 0 0xB) (shelled 1 false 0 0xB)) (fun t => (t.shellAt 0, t.trace)) =
      some (⟨0xB, 0xB⟩, [.notify true 1]) :=
  by decide

/-- V51. -/
theorem test_hw_event_again :
    after (exec (.hwEvent 0 8) (shelled 4 true 0xB 8)) (fun t => (t.shellAt 0, t.trace)) = some (⟨0xB, 8⟩, []) :=
  by decide

/-- Program P5. -/
theorem test_reset :
    after (exec .reset { fired 70000 with blk := [(2, [(0, 1)])], shell := [(0, ⟨4, 4⟩)] })
      (fun t => (t.blk, t.tmr, t.trace)) =
      some
        ([], ⟨false, 0, 0, 0, 0, 0, 0, 70000⟩, [.notify true 60000, .notify false 70000]) :=
  by decide

/-- 42_timer.md R204 (h): a CLK_CORE write brings a deadline that is over (log 17). -/
theorem test_late_deadline :
    (stopped 2000000).deadline = none ∧
      after (step (asked (stopped 1999999) 2000000 0x00680500 0x00010A05 1))
      (fun t => (t.deadline, t.deadlineSince)) =
        some (some 60000, 2000000) :=
  by decide

/-- Log 17: a poll does not restart the latency. -/
theorem test_polling_keeps_the_window :
    after (step (asked (lapsed 2000000) 2500000 0x00009100 0 0)) (fun t => (t.rdata, t.latestCheck 60000)) =
      some (some 0, 3000000) ∧ (lapsed 2500000).overdue 60000 3000000 = false ∧
      (lapsed 2500000).overdue 60000 3000001 = true := by decide

/-! Witnesses: for each obligation with hypotheses, a state and operands that meet them, clause by clause. -/

theorem witness_RouteIsRangeContainment : refCfg.wf = true ∧ edgeCfg.wf = true ∧
      route refCfg 0x00002000 = some ⟨0, ⟨"FIFO", .intrShell, 0x2000, 0x2000⟩, 0⟩ ∧
      route refCfg 0x00003FFF = some ⟨0, ⟨"FIFO", .intrShell, 0x2000, 0x2000⟩, 0x1FFF⟩ ∧
      route edgeCfg 0xFFFFFFFF = some ⟨2, ⟨"B", .regBlock, 0x9000, 0xFFFF7000⟩, 0xFFFF6FFF⟩ ∧
      route refCfg 0x00001FFF = none ∧ route refCfg 0x00004000 = none := by decide

theorem witness_DecodeReadsBackEveryEncoding : refCfg.wf = true ∧ Instr.wf refCfg (.rdUnmapped 0xFFFFFFFF) = true ∧
      Instr.wf refCfg (.wrClkWord 0xFFC 0xFFFFFFFF) = true ∧ Instr.wf refCfg (.rdTmrOther 0xFFF) = true ∧
      Instr.wf refCfg (.wrBlkMisaligned 2 0xFFF 1) = true ∧ Instr.wf refCfg (.hwEvent 0 0) = true ∧
      Instr.wf edgeCfg (.rdBlkWord 2 0xFFFF6FFC) = true := by decide

theorem witness_EncodeReadsBackEveryDecoding : refCfg.wf = true ∧ dec 0x00009400 0x55 0 = some .rdTmrTimeLo ∧
      dec 0x00002000 0xFFFFFFFF 5 = some (.hwEvent 0 0xFFFFFFFF) := by decide +kernel

theorem witness_EveryMmioTransactionDecodes :
    refCfg.wf = true ∧ isMmioPacket { addr := 0xFFFFFFFF, wdata := 1, ctl := 1 } = true ∧
      isMmioPacket { addr := 0, wdata := 0, ctl := 0 } = true := by decide

theorem witness_DecodeFollowsTheOpcodeTable : isMmioPacket { addr := 0x00680504, wdata := 9, ctl := 1 } = true ∧
      dec 0x00680504 9 1 = some (.wrClkMem 9) ∧ isMmioPacket { addr := 0x00680505, wdata := 0, ctl := 0 } = true ∧
      dec 0x00680505 0 0 = some (.rdClkMisaligned 0x505) := by decide +kernel

/-- The latest instant a request can have before the monitor. -/
theorem witness_StepPerformsTheDecodedOperation : (asked (alarm1000 0) 1060000 0x00009100 0 0).deadline = some 60000 ∧
      (asked (alarm1000 0) 1060000 0x00009100 0 0).latestCheck 60000 = 1060000 ∧
      (asked (alarm1000 0) 1060000 0x00009100 0 0).cfg.wf = true ∧ (alarm1000 0).now ≤ 1060000 ∧
      dec 0x00009100 0 0 = some .rdTmrIntr := by decide +kernel

theorem witness_StepRefusesWhatIsNoRun :
    (State.powerOn { refCfg with tu := 0 } 0).cfg.wf = false ∧
      (asked (State.powerOn refCfg 5) 4 0 0 0).cfg.wf = true ∧ 4 < (asked (State.powerOn refCfg 5) 4 0 0 0).now :=
  by decide

theorem witness_InstantsNeverDecreaseAndCfgIsConstant :
    after (step (asked State.reset 7 0x00004000 0 0)) (·.now) = some 7 := by decide

theorem witness_EveryMmioRequestCompletes : (asked (alarm1000 9) 9 0xFFFFFFFF 0 1).cfg.wf = true ∧
      isMmioPacket { addr := 0xFFFFFFFF, wdata := 0, ctl := 1 } = true ∧
      (asked (alarm1000 9) 9 0xFFFFFFFF 0 1).deadline = some 60000 ∧ 9 ≤ (alarm1000 9).latestCheck 60000 := by decide

/-- Each clause: the last instant of the window, the first request after it, a deadline that arose too late. -/
theorem witness_MonitorFiresWithinItsWindow :
    (alarm1000 1060000).cfg.wf = true ∧ (alarm1000 1060000).deadline = some 60000 ∧
      (alarm1000 1060000).deadlineSince ≤ 60000 + (alarm1000 0).cfg.alarmLatency ∧ (alarm1000 1060000).port = [] ∧
      (asked (alarm1000 0) 1060001 0 0 0).deadline = some 60000 ∧ (alarm1000 0).latestCheck 60000 < 1060001 ∧
      (lapsed 3000000).deadline = some 60000 ∧ 60000 + (lapsed 0).cfg.alarmLatency < (lapsed 3000000).deadlineSince :=
  by decide

/-- A poll at the last instant of the window, for both forms of the window. -/
theorem witness_PollingDoesNotDelayTheMonitor :
    after (step (asked (alarm1000 0) 1060000 0x00009100 0 0)) (·.deadline) = some (some 60000) ∧
      (asked (alarm1000 0) 1060000 0x00009100 0 0).deadline = some 60000 ∧ (alarm1000 0).now ≤ 1060000 ∧
      after (step (asked (lapsed 2000000) 3000000 0x00009100 0 0)) (·.deadline) = some (some 60000) := by decide

theorem witness_IdleBlockKeepsItsState :
    State.reset.cfg.wf = true ∧ State.reset.port = [] ∧ State.reset.deadline = none := by decide

theorem witness_PowerOnDefaults : (fired 60020).tmr.enabled = true := by decide

theorem witness_DerivedValuesAtReset : after (exec .reset (fired 60020)) (fun _ => true) = some true := by decide

theorem witness_MisalignedAccessesHaveNoEffect :
    State.reset.cfg.wf = true ∧ isMmioPacket { addr := 0x00009401, wdata := 0, ctl := 0 } = true ∧
      (0x00009401 : Word).toNat % 4 ≠ 0 ∧ (0x00101FFF : Word).toNat % 4 ≠ 0 := by decide

theorem witness_AggregateIsTheOrOverEngines :
    (refCfg.engineAt 0).map (·.kind) = some .intrShell ∧ (refCfg.engineAt 1).map (·.kind) = some .timer := by decide

theorem witness_RecomputeNotifiesOncePerTransition :
    lineAfter false (fired 60020).trace = some (fired 60020).disp.irqLine ∧
      lineAfter false State.reset.trace = some State.reset.disp.irqLine := by decide

theorem witness_EveryOperationNotifiesAtMostOnce : (fired 60020).disp.irqLine = (fired 60020).aggregate ∧
      after (exec (.wrTmrIntr 1) (fired 60020)) (·.disp.irqLine) = some false := by decide

theorem witness_MmioNeverEnablesOrDisablesTheTimer :
    isMmioPacket { addr := 0x00009200, wdata := 3, ctl := 1 } = true ∧
      dec 0x00009200 3 1 =
      some (.wrTmrMul 3) ∧ after (exec (.wrTmrMul 3) (alarm1000 9)) (·.tmr.enabled) = some true :=
  by decide +kernel

theorem witness_EveryStepKeepsTheInvariant : (asked (fired 60020) 60020 0x00009100 1 1).Inv ∧
    after (step (asked (fired 60020) 60020 0x00009100 1 1)) (·.tmr.pending) = some 0 :=
  ⟨⟨by decide, by decide, by decide, by decide, by decide, by decide, by decide, by decide, by decide,
    by decide⟩, by decide⟩

/-- One instruction for each disjunct. -/
theorem witness_ClkWritesStoreOneWord : (alarm1000 0).clk.word.wf = true ∧ (alarm1000 0).cfg.clkCoreOff = 0x500 ∧
      (alarm1000 0).cfg.clkMemOff = 0x504 ∧ (alarm1000 0).cfg.clkVidOff = 0x508 ∧
      Instr.wf refCfg (.wrClkWord 0xFFC 1) = true := by decide

theorem witness_CoefficientWritesChangeOneFrequency :
    (alarm1000 0).cfg.wf = true ∧ (alarm1000 0).clk.word.wf = true := by decide

theorem witness_CoreClockWriteAppliesToTheWholeInterval :
    (alarm1000 9).clk.word.wf = true ∧ (alarm1000 9).tmr.enabled = true := by decide

theorem witness_DeltaIsTheScaledElapsedTime : (59 : Nat) ≤ 60 := by decide

theorem witness_DeadlineIsTheLeastDueInstant : (alarm1000 0).cfg.wf = true ∧ (alarm1000 0).deadline = some 60000 ∧
      (alarm1000 0).alarmDue 59999 = false ∧ (alarm1000 0).alarmDue 60000 = true ∧
      (running 0 0 5 10 0).cfg.wf = true ∧ (running 0 0 5 10 0).deadline = none := by decide

/-- Both clauses, and the crossing at its first instant. -/
theorem witness_SyncIsTheTickCountAlgorithm : State.reset.tmr.enabled = false ∧ (alarm1000 0).tmr.enabled = true ∧
      crosses (alarm1000 0).tmr.ticks ((alarm1000 0).delta 60000) (alarm1000 0).tmr.alarm = true ∧
      crosses (alarm1000 0).tmr.ticks ((alarm1000 0).delta 59999) (alarm1000 0).tmr.alarm = false := by decide

theorem witness_CountMovesOnlyByElapsedTicks : after (exec .rdTmrTimeLo (alarm1000 60000)) (·.tmr.ticks) = some 1000 ∧
      (alarm1000 60000).tmr.ticks.toNat + (alarm1000 60000).delta 60000 < 2 ^ 56 := by decide

theorem witness_CountStaysWithinKTicksOfIdeal :
    (alarm1000 0).tmr.enabled = true ∧ ((alarm1000 0).tmr.baseline :: [60, 119, 119]).Pairwise (· ≤ ·) ∧
      [60, 119, 119].getLast? = some 119 := by decide

/-- V143. -/
theorem witness_PollingFasterThanATickStarvesTheCounter : ((running 0 1 1 0 0).tmr.baseline :: [59, 118]).IsChain
      (fun t u => (u - t) * (running 0 1 1 0 0).rateNum < refCfg.tu * (running 0 1 1 0 0).rateDen) ∧
      [59, 118].getLast? = some 118 := by decide

theorem witness_RatioWritesSplitTheIntervalAtTheWrite : (running 500000000 1 1 0 0).tmr.enabled = true := by decide

theorem witness_DisableClearsTheTimer :
    (fired 60020).tmr.enabled = true ∧ State.reset.tmr.enabled = false := by decide

theorem witness_AlarmCheckFiresExactlyWhenDue :
    (alarm1000 60000).alarmDue 60000 = true ∧ (alarm1000 59999).alarmDue 59999 = false := by decide

theorem witness_BlkWritesStoreOneWord : Store.wf [] State.reset.blk = true ∧ (State.reset.blkAt 2).wf = true ∧
      Store.wf [] ({ State.reset with blk := [(2, [(0, 1)])] } : State).blk = true ∧
      (({ State.reset with blk := [(2, [(0, 1)])] } : State).blkAt 2).wf = true := by decide

theorem witness_ShellPendingIsWriteOneToClear :
    Store.wf { pending := 0, mask := 0 } (shelled 1 false 0xB 0).shell = true := by decide

theorem witness_ShellMaskIsReplacedWhole :
    Store.wf { pending := 0, mask := 0 } (shelled 1 false 0xB 0).shell = true := by decide

theorem witness_HwEventSetsPendingBits :
    Store.wf { pending := 0, mask := 0 } (shelled 1 false 0xB 0).shell = true := by decide

theorem witness_ClearingNeverLosesUnnamedEvents :
    Store.wf { pending := 0, mask := 0 } (shelled 1 false 0xB 0).shell = true ∧ (4 : Word) &&& 3 = 0 := by decide

end Sys2Proof.Tests
end

section
/-! PROOFS of 10_state.md: the defaults of R50 at power-on, after `RESET` and after `TMR_DISABLE`. -/

namespace Sys2Proof.Machine

/-! The state with nothing stored. -/

/-- Where no store lists anything, every register of the clock generator and of the shell engines is zero. -/
theorem State.registers_zero_of_empty {s : State} (hclk : s.clk.word = []) (hshell : s.shell = []) (hblk : s.blk = []) :
    (∀ i, s.clk.word.read i = 0) ∧ (∀ e, s.shellAt e = ⟨0, 0⟩) ∧ ∀ e i, (s.blkAt e).read i = 0 := by
  refine ⟨fun i => ?_, fun e => ?_, fun e i => ?_⟩
  · simp [hclk]
  · simp [State.shellAt, hshell]
  · simp [State.blkAt, hblk]

/-- With nothing pending in the timer or in a shell no engine asserts (40_dispatcher.md R128). -/
theorem State.asserting_of_nothing_pending {s : State} (htmr : s.tmr.pending = 0)
    (hshell : ∀ e, (s.shellAt e).pending = 0) (en : Engine) (e : Nat) : s.asserting en e = false := by
  unfold State.asserting
  cases en.kind with
  | timer => simp [htmr]
  | intrShell => simp [hshell]
  | clkGen => rfl
  | regBlock => rfl

/-- With nothing pending in the timer or in a shell the aggregate is false (40_dispatcher.md R129). -/
theorem State.aggregate_of_nothing_pending {s : State} (htmr : s.tmr.pending = 0)
    (hshell : ∀ e, (s.shellAt e).pending = 0) : s.aggregate = false := by
  simp [State.aggregate, State.asserting_of_nothing_pending htmr hshell]

/-- The engine resets of `RESET` withdraw every interrupt condition. -/
theorem State.aggregate_of_engines_reset (s : State) (t : Nat) : (s.resetStorage.resetTimer t).aggregate = false :=
  State.aggregate_of_nothing_pending (by simp [Tmr.resetAt]) fun e => by simp [State.shellAt]

/-- `Recompute` only extends the trace. -/
theorem State.recompute_trace_extends (s : State) (t : Nat) : ∃ es, (s.recompute t).trace = s.trace ++ es := by
  rw [State.recompute_trace]
  split
  · exact ⟨[], by simp⟩
  · exact ⟨_, rfl⟩

/-! The operations that reset. -/

/-- `RESET` goes on from every state (40_dispatcher.md R133). -/
theorem exec_reset (s : State) :
    exec .reset s = .next ((s.resetStorage.resetTimer s.now).recompute s.now).ack := rfl

/-- `TMR_DISABLE` from Enabled is the timer's Reset() and `Recompute` (42_timer.md R194). -/
theorem exec_tmrDisable_of_enabled {s : State} (h : s.tmr.enabled = true) :
    exec .tmrDisable s = .next ((s.resetTimer s.now).recompute s.now).ack := if_pos h

/-- Settles O14: each clause reads the fields its operation leaves; after `RESET` the line is the aggregate of engines
with nothing pending. -/
theorem powerOnDefaults : Obligations.PowerOnDefaults := by
  unfold Obligations.PowerOnDefaults
  refine ⟨fun c now => ⟨rfl, rfl, rfl, State.registers_zero_of_empty rfl rfl rfl⟩,
    fun s => ⟨_, exec_reset s, ?tmr, ?line, ?trace, ?registers⟩,
    fun s he => ⟨_, exec_tmrDisable_of_enabled he, ?disabled⟩⟩
  case tmr => simp [Tmr.resetAt]
  case line => simp [State.aggregate_of_engines_reset]
  case trace => simpa using (s.resetStorage.resetTimer s.now).recompute_trace_extends s.now
  case registers => exact State.registers_zero_of_empty (by simp) (by simp) (by simp)
  case disabled => simp [Tmr.resetAt]

end Sys2Proof.Machine
end

section
/-! PROOFS of 20_memory.md: routing by range containment (R68) and the misaligned accesses (R63). -/

namespace Sys2Proof

/-! Routing. -/

/-- The window that `route` answers holds the address, and the offset counts from its base. -/
theorem route_sound {c : Cfg} {addr : Word} {r : Routed} (h : route c addr = some r) :
    c.engineAt r.id = some r.engine ∧ r.engine.contains addr.toNat = true ∧ r.off = addr.toNat - r.engine.base := by
  obtain ⟨p, hp, rfl⟩ := Option.map_eq_some_iff.mp h
  have hin : p.1.contains addr.toNat = true := by simpa using List.find?_some hp
  exact ⟨List.mem_zipIdx_iff_getElem?.mp (List.mem_of_find?_eq_some hp), hin, rfl⟩

/-- An address is unmapped if and only if no window holds it (40_dispatcher.md R121). -/
theorem route_eq_none_iff {c : Cfg} {addr : Word} :
    route c addr = none ↔ ∀ e en, c.engineAt e = some en → en.contains addr.toNat = false := by
  simp [route, List.mem_zipIdx_iff_getElem?, Cfg.engineAt, forall_comm (α := Engine)]

/-- Windows do not overlap, so a window that holds the address is the one `route` answers (20_memory.md R68). -/
theorem route_of_contains {c : Cfg} (hc : c.wf = true) {addr : Word} {r : Routed}
    (he : c.engineAt r.id = some r.engine) (hin : r.engine.contains addr.toNat = true)
    (hoff : r.off = addr.toNat - r.engine.base) : route c addr = some r := by
  cases hr : route c addr with
  | none => simp [route_eq_none_iff.mp hr r.id r.engine he] at hin
  | some q =>
    obtain ⟨hqe, hqin, hqoff⟩ := route_sound hr
    have hid : q.id = r.id := Cfg.unique_of_contains hc hqe he hqin hin
    have hen : q.engine = r.engine := Option.some.inj (hqe.symm.trans (hid ▸ he))
    cases q; cases r; simp_all

/-- Settles O1: what `route` answers holds the address, and disjoint windows leave no other answer. -/
theorem routeIsRangeContainment : Obligations.RouteIsRangeContainment := by
  unfold Obligations.RouteIsRangeContainment
  refine fun c addr hc => ⟨fun r => ⟨fun hr => ?_, fun ⟨he, hlo, hhi, hoff⟩ => ?_⟩, ?_⟩
  · obtain ⟨he, hin, hoff⟩ := route_sound hr
    obtain ⟨hlo, hhi⟩ := (Engine.contains_iff _ _).mp hin
    exact ⟨he, hlo, hhi, hoff⟩
  · exact route_of_contains hc he ((Engine.contains_iff _ _).mpr ⟨hlo, hhi⟩) hoff
  · simp only [route_eq_none_iff, ← Engine.contains_iff, Bool.not_eq_true]

/-! The decode of an MMIO transaction, by its direction and where it is routed. -/

theorem decode_unmapped_read {c : Cfg} {p : Packet} (hp : p.ctl = tagRead) (hr : route c p.addr = none) :
    decode c p = .ok (.rdUnmapped p.addr) := by
  simp [decode, hp, hr]

theorem decode_routed_read {c : Cfg} {p : Packet} {r : Routed} (hp : p.ctl = tagRead)
    (hr : route c p.addr = some r) : decode c p = .ok (decodeRead c r) := by
  simp [decode, hp, hr]

theorem decode_unmapped_write {c : Cfg} {p : Packet} (hp : p.ctl = tagWrite) (hr : route c p.addr = none) :
    decode c p = .ok (.wrUnmapped p.addr p.wdata) := by
  simp [decode, hp, hr, tagWrite, tagRead]

theorem decode_routed_write {c : Cfg} {p : Packet} {r : Routed} (hp : p.ctl = tagWrite)
    (hr : route c p.addr = some r) : decode c p = .ok (decodeWrite c r p.wdata) := by
  simp [decode, hp, hr, tagWrite, tagRead]

/-! Misaligned accesses. -/

/-- Bases are multiples of 4 (00_scope.md R8 (c)), so a misaligned address has a misaligned offset. -/
theorem route_off_misaligned {c : Cfg} (hc : c.wf = true) {addr : Word} {r : Routed} (hr : route c addr = some r)
    (ha : addr.toNat % 4 ≠ 0) : r.off % 4 ≠ 0 := by
  obtain ⟨he, hin, hoff⟩ := route_sound hr
  obtain ⟨hlo, -⟩ := (Engine.contains_iff _ _).mp hin
  obtain ⟨-, -, hbase, -⟩ := Cfg.window_of_wf hc he
  omega

/-- Register offsets are multiples of 4 (00_scope.md R8 (e)), so a misaligned address is no register's. -/
theorem route_off_not_register {c : Cfg} (hc : c.wf = true) {addr : Word} {r : Routed} (hr : route c addr = some r)
    (ha : addr.toNat % 4 ≠ 0) : r.off ∉ c.offsOf r.engine.kind := fun hmem =>
  route_off_misaligned hc hr ha (Cfg.offset_of_wf hc (route_sound hr).1 hmem).1

end Sys2Proof

namespace Sys2Proof.Machine

/-- Whatever the kind of the engine, a read at a misaligned offset that is no register's is one of the reads that
return zero (41_clockgen.md R153, 42_timer.md R184, 43_shell_engines.md R223, R231). -/
theorem exec_decodeRead_of_misaligned {c : Cfg} {r : Routed} (hmis : r.off % 4 ≠ 0)
    (hreg : r.off ∉ c.offsOf r.engine.kind) (s : State) : exec (decodeRead c r) s = .next (s.reply 0) := by
  cases hk : r.engine.kind with
  | clkGen =>
    have hi : decodeRead c r = .rdClkMisaligned r.off := by simp [decodeRead, hk, hmis]
    rw [hi]; rfl
  | regBlock =>
    have hi : decodeRead c r = .rdBlkMisaligned r.id r.off := by simp [decodeRead, hk, hmis]
    rw [hi]; rfl
  | timer =>
    simp only [hk, Cfg.offsOf, Cfg.tmrOffs, List.mem_cons, List.not_mem_nil, or_false, not_or] at hreg
    have hi : decodeRead c r = .rdTmrOther r.off := by simp [decodeRead, hk, hreg]
    rw [hi]; rfl
  | intrShell =>
    simp only [hk, Cfg.offsOf, Cfg.shellOffs, List.mem_cons, List.not_mem_nil, or_false, not_or] at hreg
    have hi : decodeRead c r = .rdShellOther r.id r.off := by simp [decodeRead, hk, hreg]
    rw [hi]; rfl

/-- Whatever the kind of the engine, a write at a misaligned offset that is no register's is one of the writes that
are ignored (41_clockgen.md R153, 42_timer.md R192, 43_shell_engines.md R223, R231). -/
theorem exec_decodeWrite_of_misaligned {c : Cfg} {r : Routed} (hmis : r.off % 4 ≠ 0)
    (hreg : r.off ∉ c.offsOf r.engine.kind) (d : Word) (s : State) : exec (decodeWrite c r d) s = .next s.ack := by
  cases hk : r.engine.kind with
  | clkGen =>
    have hi : decodeWrite c r d = .wrClkMisaligned r.off d := by simp [decodeWrite, hk, hmis]
    rw [hi]; rfl
  | regBlock =>
    have hi : decodeWrite c r d = .wrBlkMisaligned r.id r.off d := by simp [decodeWrite, hk, hmis]
    rw [hi]; rfl
  | timer =>
    simp only [hk, Cfg.offsOf, Cfg.tmrOffs, List.mem_cons, List.not_mem_nil, or_false, not_or] at hreg
    have hi : decodeWrite c r d = .wrTmrOther r.off d := by simp [decodeWrite, hk, hreg]
    rw [hi]; rfl
  | intrShell =>
    simp only [hk, Cfg.offsOf, Cfg.shellOffs, List.mem_cons, List.not_mem_nil, or_false, not_or] at hreg
    have hi : decodeWrite c r d = .wrShellOther r.id r.off d := by simp [decodeWrite, hk, hreg]
    rw [hi]; rfl

/-- A misaligned read, mapped or not, returns zero and changes nothing (20_memory.md R63). -/
theorem misaligned_read {s : State} {p : Packet} (hc : s.cfg.wf = true) (hp : p.ctl = tagRead)
    (ha : p.addr.toNat % 4 ≠ 0) : ∃ i, decode s.cfg p = .ok i ∧ exec i s = .next (s.reply 0) := by
  cases hr : route s.cfg p.addr with
  | none => exact ⟨_, decode_unmapped_read hp hr, rfl⟩
  | some r => exact ⟨_, decode_routed_read hp hr,
      exec_decodeRead_of_misaligned (route_off_misaligned hc hr ha) (route_off_not_register hc hr ha) s⟩

/-- A misaligned write, mapped or not, returns nothing and changes nothing (20_memory.md R63). -/
theorem misaligned_write {s : State} {p : Packet} (hc : s.cfg.wf = true) (hp : p.ctl = tagWrite)
    (ha : p.addr.toNat % 4 ≠ 0) : ∃ i, decode s.cfg p = .ok i ∧ exec i s = .next s.ack := by
  cases hr : route s.cfg p.addr with
  | none => exact ⟨_, decode_unmapped_write hp hr, rfl⟩
  | some r => exact ⟨_, decode_routed_write hp hr,
      exec_decodeWrite_of_misaligned (route_off_misaligned hc hr ha) (route_off_not_register hc hr ha) p.wdata s⟩

/-- A packet is an MMIO transaction when its tag is a read's or a write's (30_encoding.md R90). -/
theorem isMmioPacket_iff {p : Packet} : isMmioPacket p = true ↔ p.ctl = tagRead ∨ p.ctl = tagWrite := by
  simp [isMmioPacket]

/-- Settles O19: the access is a read or a write, and each is without effect wherever it is routed. -/
theorem misalignedAccessesHaveNoEffect : Obligations.MisalignedAccessesHaveNoEffect := by
  unfold Obligations.MisalignedAccessesHaveNoEffect
  intro s p hc hmmio ha
  rcases isMmioPacket_iff.mp hmmio with hp | hp
  · simpa [hp, State.reply] using misaligned_read hc hp ha
  · simpa [hp, State.ack, tagWrite, tagRead] using misaligned_write hc hp ha

end Sys2Proof.Machine
end

section
/-! PROOFS of 40_dispatcher.md: the unmapped fallback (R124, R125), the aggregate (R128, R129) and `RESET` (R133). -/

namespace Sys2Proof.Machine

/-! `Asserting` by the kind of the engine, and `Aggregate` over the positions of ENGINES. -/

theorem State.asserting_timer_iff {s : State} {en : Engine} (h : en.kind = .timer) (e : Nat) :
    s.asserting en e = true ↔ s.tmr.pending &&& s.tmr.mask ≠ 0 := by
  simp [State.asserting, h]

theorem State.asserting_intrShell_iff {s : State} {en : Engine} (h : en.kind = .intrShell) (e : Nat) :
    s.asserting en e = true ↔ (s.shellAt e).pending &&& (s.shellAt e).mask ≠ 0 := by
  simp [State.asserting, h]

/-- An engine that asserts is interrupt-bearing (10_state.md R23). -/
theorem State.interruptBearing_of_asserting {s : State} {en : Engine} {e : Nat} (h : s.asserting en e = true) :
    en.kind = .timer ∨ en.kind = .intrShell := by
  cases hk : en.kind with
  | timer => exact .inl rfl
  | intrShell => exact .inr rfl
  | clkGen => simp [State.asserting, hk] at h
  | regBlock => simp [State.asserting, hk] at h

/-- The aggregate is an OR over the positions of ENGINES (40_dispatcher.md R129). -/
theorem State.aggregate_iff {s : State} :
    s.aggregate = true ↔ ∃ e en, s.cfg.engineAt e = some en ∧ s.asserting en e = true := by
  simp only [State.aggregate, List.any_eq_true, Prod.exists, List.mem_zipIdx_iff_getElem?, Cfg.engineAt]
  exact exists_comm

/-- Settles O20: an engine asserts by its kind, and only interrupt-bearing engines contribute to the OR. -/
theorem aggregateIsTheOrOverEngines : Obligations.AggregateIsTheOrOverEngines := by
  unfold Obligations.AggregateIsTheOrOverEngines
  refine fun s => ⟨fun e en hk => State.asserting_timer_iff hk e, fun e en hk => State.asserting_intrShell_iff hk e, ?_⟩
  rw [State.aggregate_iff]
  constructor
  · rintro ⟨e, en, he, hen⟩
    exact ⟨e, en, he, State.interruptBearing_of_asserting hen, hen⟩
  · rintro ⟨e, en, he, -, hen⟩
    exact ⟨e, en, he, hen⟩

/-! `RESET`. -/

/-- `Recompute` writes the line and the trace, and nothing else (40_dispatcher.md R130). -/
theorem State.recompute_eq (s : State) (t : Nat) : s.recompute t = { s with
    disp := { irqLine := s.aggregate }
    trace := if s.aggregate = s.disp.irqLine then s.trace else s.trace ++ [.notify s.aggregate t] } := by
  unfold State.recompute
  split
  · next h => rw [h]
  · rfl

/-- `RESET` leaves the power-on state of this instant, but for the trace, which gains the withdrawal of an asserted
line, and the fields that belong to the step (40_dispatcher.md R133). -/
theorem exec_reset_eq_powerOn (s : State) : exec .reset s = .next { State.powerOn s.cfg s.now with
    trace := if s.disp.irqLine then s.trace ++ [.notify false s.now] else s.trace
    port := s.port
    draws := s.draws
    deadlineSince := s.deadlineSince } := by
  rw [exec_reset, State.recompute_eq, State.aggregate_of_engines_reset]
  cases hline : s.disp.irqLine <;> simp [hline, State.ack, State.powerOn, State.resetStorage, State.resetTimer]

/-- Settles O17: every field is read off the state that `RESET` leaves. -/
theorem resetClearsEveryEngine : Obligations.ResetClearsEveryEngine := by
  unfold Obligations.ResetClearsEveryEngine
  exact fun s => ⟨_, exec_reset_eq_powerOn s, rfl, rfl, rfl, rfl, rfl, rfl, rfl,
    exec_sameFrame _ _ _ (exec_reset_eq_powerOn s), rfl⟩

/-! The unmapped fallback. -/

/-- An unmapped read answers zero (40_dispatcher.md R124). -/
theorem exec_rdUnmapped (addr : Word) (s : State) : exec (.rdUnmapped addr) s = .next (s.reply 0) := rfl

/-- An unmapped write is acknowledged and ignored (40_dispatcher.md R125). -/
theorem exec_wrUnmapped (addr d : Word) (s : State) : exec (.wrUnmapped addr d) s = .next s.ack := rfl

/-- Settles O18: replying and acknowledging write the returned value alone. -/
theorem unmappedAccessesHaveNoEffect : Obligations.UnmappedAccessesHaveNoEffect := by
  unfold Obligations.UnmappedAccessesHaveNoEffect
  exact fun addr d s => ⟨exec_rdUnmapped addr s, exec_wrUnmapped addr d s⟩

end Sys2Proof.Machine
end

section
/-! PROOFS of 41_clockgen.md: the reads of the stored words (R151), the misaligned accesses (R153) and the frequency
of a coefficient word (R155, R158). -/

namespace Sys2Proof.Machine

/-! The fields of a coefficient word by their bit positions (30_encoding.md R94), and the frequency they decode to. -/

theorem pllM_eq (w : Word) : pllM w = w.toNat % 2 ^ 8 := by
  simp [pllM, BitVec.extractLsb'_toNat]

theorem pllN_eq (w : Word) : pllN w = w.toNat / 2 ^ 8 % 2 ^ 8 := by
  simp [pllN, BitVec.extractLsb'_toNat, Nat.shiftRight_eq_div_pow]

theorem pllP_eq (w : Word) : pllP w = w.toNat / 2 ^ 16 % 2 ^ 3 := by
  simp [pllP, BitVec.extractLsb'_toNat, Nat.shiftRight_eq_div_pow]

/-- The multiplier is a field of eight bits. -/
theorem pllN_le (w : Word) : pllN w ≤ 255 := Nat.le_of_lt_succ (w.extractLsb' 8 8).isLt

/-- Dividing by `M' * 2 ^ P` only lowers the numerator, and N is at most 255 (41_clockgen.md R155). -/
theorem pllFreq_le (c : Cfg) (w : Word) : pllFreq c w ≤ 255 * c.fRef :=
  calc pllFreq c w
    _ ≤ c.fRef * pllN w := Nat.div_le_self _ _
    _ ≤ c.fRef * 255 := Nat.mul_le_mul_left _ (pllN_le w)
    _ = 255 * c.fRef := Nat.mul_comm _ _

/-- Settles O25: the formula with each field at its bit positions, and its range. -/
theorem pllFreqIsTheFormula : Obligations.PllFreqIsTheFormula := by
  unfold Obligations.PllFreqIsTheFormula
  refine fun c w => ⟨?_, pllFreq_le c w⟩
  rw [pllFreq, orOne, pllN_eq, pllM_eq, pllP_eq]

/-! The reads of an aligned word, and the state they leave. -/

theorem exec_rdClkWord (off : Nat) (s : State) :
    exec (.rdClkWord off) s = .next (s.reply (s.clk.word.read (off / 4))) := rfl

theorem exec_rdClkCore (s : State) :
    exec .rdClkCore s = .next (s.reply (s.clk.word.read (s.cfg.clkCoreOff / 4))) := rfl

theorem exec_rdClkMem (s : State) :
    exec .rdClkMem s = .next (s.reply (s.clk.word.read (s.cfg.clkMemOff / 4))) := rfl

theorem exec_rdClkVid (s : State) :
    exec .rdClkVid s = .next (s.reply (s.clk.word.read (s.cfg.clkVidOff / 4))) := rfl

/-- Power-on stores no word of the clock generator, so each reads zero (10_state.md R50). -/
theorem State.powerOn_clk_read (c : Cfg) (now i : Nat) : (State.powerOn c now).clk.word.read i = 0 :=
  (State.registers_zero_of_empty (s := State.powerOn c now) rfl rfl rfl).1 i

/-- Settles O26: each read replies with its stored word, and replying writes the returned value alone. -/
theorem clkReadsReturnTheStoredWord : Obligations.ClkReadsReturnTheStoredWord := by
  unfold Obligations.ClkReadsReturnTheStoredWord
  exact ⟨fun s off => ⟨exec_rdClkWord off s, exec_rdClkCore s, exec_rdClkMem s, exec_rdClkVid s⟩,
    State.powerOn_clk_read⟩

/-! The misaligned accesses. -/

/-- A misaligned read answers zero, whatever the word that holds the address (41_clockgen.md R153). -/
theorem exec_rdClkMisaligned (off : Nat) (s : State) : exec (.rdClkMisaligned off) s = .next (s.reply 0) := rfl

/-- A misaligned write is acknowledged and ignored (41_clockgen.md R153). -/
theorem exec_wrClkMisaligned (off : Nat) (d : Word) (s : State) : exec (.wrClkMisaligned off d) s = .next s.ack := rfl

/-- Settles O28: replying and acknowledging write the returned value alone. -/
theorem clkMisalignedAccessesHaveNoEffect : Obligations.ClkMisalignedAccessesHaveNoEffect := by
  unfold Obligations.ClkMisalignedAccessesHaveNoEffect
  exact fun s off d => ⟨exec_rdClkMisaligned off s, exec_wrClkMisaligned off d s⟩

end Sys2Proof.Machine
end

section
/-! PROOFS of 42_timer.md: the elapsed ticks and the alarm crossing (R171 to R174), the timer's registers (R177 to
R192), its enable and disable (R193 to R195) and the monitor's step (R200). -/

namespace Sys2Proof.Machine

/-! `Delta`, `Crosses` and `AlarmDue`. -/

/-- `Delta` does not decrease as the clock goes on (42_timer.md R173). -/
theorem State.delta_mono (s : State) {now later : Nat} (h : now ≤ later) : s.delta now ≤ s.delta later := by
  unfold State.delta
  cases s.tmr.enabled with
  | false => simp
  | true => exact Nat.div_le_div_right (Nat.mul_le_mul_right _ (Nat.sub_le_sub_right h _))

/-- Only a divisor register of zero is replaced by 1 (42_timer.md R171). -/
theorem orOne_toNat (w : Word) : orOne w.toNat = if w = 0 then 1 else w.toNat := by
  simp [orOne, BitVec.toNat_eq]

/-- Settles O31: `Delta` with its rate written out, and its monotonicity. -/
theorem deltaIsTheScaledElapsedTime : Obligations.DeltaIsTheScaledElapsedTime := by
  unfold Obligations.DeltaIsTheScaledElapsedTime
  refine fun s now later => ⟨?_, s.delta_mono⟩
  rw [← orOne_toNat]
  rfl

/-- `alarmDist` increments take the count to the alarm value (42_timer.md R174). -/
theorem add_alarmDist_mod (old : Ticks) (alarm : Word) : (old.toNat + alarmDist old alarm) % 2 ^ 56 = alarm.toNat := by
  have hold := old.isLt
  have halarm := alarm.isLt
  rw [alarmDist_eq]
  split <;> omega

/-- No fewer increments than `alarmDist` take the count to the alarm value (42_timer.md R174). -/
theorem alarmDist_le_of_hit {old : Ticks} {alarm : Word} {k : Nat} (hk : old.toNat < k)
    (hit : k % 2 ^ 56 = alarm.toNat) : old.toNat + alarmDist old alarm ≤ k := by
  have hold := old.isLt
  rw [alarmDist_eq]
  split <;> omega

theorem crosses_iff {old : Ticks} {delta : Nat} {alarm : Word} :
    crosses old delta alarm = true ↔ alarmDist old alarm ≤ delta := decide_eq_true_iff

/-- Settles O32: the least increment that hits the alarm is the one at `alarmDist`, which is positive. -/
theorem crossingMeansAnIncrementHitsTheAlarm : Obligations.CrossingMeansAnIncrementHitsTheAlarm := by
  unfold Obligations.CrossingMeansAnIncrementHitsTheAlarm
  intro old delta alarm
  rw [crosses_iff]
  constructor
  · intro hle
    exact ⟨old.toNat + alarmDist old alarm, Nat.lt_add_of_pos_right (alarmDist_pos old alarm),
      Nat.add_le_add_left hle _, add_alarmDist_mod old alarm⟩
  · rintro ⟨k, hk, hkd, hit⟩
    exact Nat.le_of_add_le_add_left ((alarmDist_le_of_hit hk hit).trans hkd)

/-- No tick has elapsed at the baseline, so the alarm is not due there (42_timer.md R175). -/
theorem State.not_alarmDue_at_baseline (s : State) : s.alarmDue s.tmr.baseline = false := by
  have hdist := alarmDist_pos s.tmr.ticks s.tmr.alarm
  simp [State.alarmDue, State.delta_at_baseline, crosses, Nat.ne_of_gt hdist]

/-! The reads of the timer's registers. -/

theorem exec_rdTmrIntr (s : State) : exec .rdTmrIntr s = .next (s.reply s.tmr.pending) := rfl

theorem exec_rdTmrIntrEn (s : State) : exec .rdTmrIntrEn s = .next (s.reply s.tmr.mask) := rfl

theorem exec_rdTmrMul (s : State) : exec .rdTmrMul s = .next (s.reply s.tmr.mul) := rfl

theorem exec_rdTmrDiv (s : State) : exec .rdTmrDiv s = .next (s.reply s.tmr.div) := rfl

theorem exec_rdTmrAlarm (s : State) : exec .rdTmrAlarm s = .next (s.reply s.tmr.alarm) := rfl

theorem exec_rdTmrTimeLo (s : State) :
    exec .rdTmrTimeLo s = .next ((s.sync s.now).reply (timeLoView (s.sync s.now).tmr.ticks)) := rfl

theorem exec_rdTmrTimeHi (s : State) :
    exec .rdTmrTimeHi s = .next ((s.sync s.now).reply (timeHiView (s.sync s.now).tmr.ticks)) := rfl

/-- A read at an offset that is no register's answers zero (42_timer.md R184). -/
theorem exec_rdTmrOther (off : Nat) (s : State) : exec (.rdTmrOther off) s = .next (s.reply 0) := rfl

/-- Settles O39: each read replies with its stored field, and replying writes the returned value alone. -/
theorem timerStoredRegistersReadBack : Obligations.TimerStoredRegistersReadBack := by
  unfold Obligations.TimerStoredRegistersReadBack
  exact fun s => ⟨exec_rdTmrIntr s, exec_rdTmrIntrEn s, exec_rdTmrMul s, exec_rdTmrDiv s, exec_rdTmrAlarm s⟩

/-- Settles O40: each read replies with its view of the synced count, and the views are placed by arithmetic. -/
theorem countReadsSyncAndReturnTheirHalf : Obligations.CountReadsSyncAndReturnTheirHalf := by
  unfold Obligations.CountReadsSyncAndReturnTheirHalf
  exact fun s => ⟨⟨_, exec_rdTmrTimeLo s, timeLoView_toNat _⟩, ⟨_, exec_rdTmrTimeHi s, timeHiView_toNat _⟩⟩

/-! The writes that begin with `Sync`, and the write that is ignored. -/

theorem exec_wrTmrMul (d : Word) (s : State) : exec (.wrTmrMul d) s = .next ((s.sync s.now).setMul d).ack := rfl

theorem exec_wrTmrDiv (d : Word) (s : State) : exec (.wrTmrDiv d) s = .next ((s.sync s.now).setDiv d).ack := rfl

theorem exec_wrTmrAlarm (d : Word) (s : State) : exec (.wrTmrAlarm d) s = .next ((s.sync s.now).setAlarm d).ack := rfl

theorem exec_wrTmrTimeLo (d : Word) (s : State) : exec (.wrTmrTimeLo d) s =
    .next ((s.sync s.now).setTicks (withTimeLo (s.sync s.now).tmr.ticks d)).ack := rfl

theorem exec_wrTmrTimeHi (d : Word) (s : State) : exec (.wrTmrTimeHi d) s =
    .next ((s.sync s.now).setTicks (withTimeHi (s.sync s.now).tmr.ticks d)).ack := rfl

/-- A write at an offset that is no register's is acknowledged and ignored (42_timer.md R192). -/
theorem exec_wrTmrOther (off : Nat) (d : Word) (s : State) : exec (.wrTmrOther off d) s = .next s.ack := rfl

/-- Settles O44: each write is `Sync` and then one field of the timer. -/
theorem ratioAndAlarmWritesSyncThenStore : Obligations.RatioAndAlarmWritesSyncThenStore := by
  unfold Obligations.RatioAndAlarmWritesSyncThenStore
  exact fun s d => ⟨exec_wrTmrMul d s, exec_wrTmrDiv d s, exec_wrTmrAlarm d s⟩

/-- Settles O46: each write is `Sync` and then the count with one half replaced, whose value is arithmetic. -/
theorem countWritesReplaceOneHalf : Obligations.CountWritesReplaceOneHalf := by
  unfold Obligations.CountWritesReplaceOneHalf
  exact fun s d => ⟨⟨_, exec_wrTmrTimeLo d s, withTimeLo_toNat _ d⟩, ⟨_, exec_wrTmrTimeHi d s, withTimeHi_toNat _ d⟩⟩

/-- Settles O41: replying and acknowledging write the returned value alone. -/
theorem timerOtherOffsetsHaveNoEffect : Obligations.TimerOtherOffsetsHaveNoEffect := by
  unfold Obligations.TimerOtherOffsetsHaveNoEffect
  exact fun s off d => ⟨exec_rdTmrOther off s, exec_wrTmrOther off d s⟩

/-! The operations that change the timer and then run `Recompute`. -/

/-- `Recompute` after an update that leaves the line and the trace: the line is that of the updated state. -/
theorem State.recompute_lineRecomputed {s u : State} (hdisp : u.disp = s.disp) (htrace : u.trace = s.trace) (t : Nat) :
    LineRecomputed s t (u.recompute t).ack := by
  have hagg : (u.recompute t).ack.aggregate = u.aggregate := u.recompute_aggregate t
  refine ⟨?_, ?_⟩
  · rw [hagg, State.ack_disp, State.recompute_irqLine]
  · rw [hagg, State.ack_trace, State.recompute_trace, hdisp, htrace]

/-- An operation that replaces the timer by `x`, runs `Recompute` and returns nothing leaves the rest of the state
as it was (42_timer.md R185, R186, R194). -/
theorem State.timerUpdate_recompute_frame (s : State) (x : Tmr) :
    let t := (({ s with tmr := x } : State).recompute s.now).ack
    LineRecomputed s s.now t ∧ SameStorage s t ∧ SameFrame s t ∧ t.shell = s.shell ∧ t.rdata = none :=
  ⟨State.recompute_lineRecomputed rfl rfl s.now, by simp [SameStorage], by simp [SameFrame], by simp, rfl⟩

theorem exec_wrTmrIntr (d : Word) (s : State) :
    exec (.wrTmrIntr d) s = .next ((s.setPending (clearBits s.tmr.pending d)).recompute s.now).ack := rfl

theorem exec_wrTmrIntrEn (d : Word) (s : State) :
    exec (.wrTmrIntrEn d) s = .next ((s.setMask d).recompute s.now).ack := rfl

/-- Write-1-to-clear keeps exactly the bits written as 0 (20_memory.md R72). -/
theorem clearBits_getLsbD (pending d : Word) (b : Nat) :
    (clearBits pending d).getLsbD b = (pending.getLsbD b && !d.getLsbD b) := by
  have hout : 32 ≤ b → pending.getLsbD b = false := BitVec.getLsbD_of_ge pending b
  by_cases hb : b < 32
  · simp [clearBits, hb]
  · simp [clearBits, hout (Nat.le_of_not_lt hb)]

/-- Settles O42: `Recompute` keeps the timer, whose pending field is the old one with bits cleared. -/
theorem timerPendingIsWriteOneToClear : Obligations.TimerPendingIsWriteOneToClear := by
  unfold Obligations.TimerPendingIsWriteOneToClear
  refine fun s d => ⟨_, exec_wrTmrIntr d s, ?tmr, fun b => ?bit, s.timerUpdate_recompute_frame _⟩
  case tmr => simp
  case bit => simpa using clearBits_getLsbD s.tmr.pending d b

/-- Settles O43: `Recompute` keeps the timer, whose mask is the written word. -/
theorem timerMaskIsReplacedWhole : Obligations.TimerMaskIsReplacedWhole := by
  unfold Obligations.TimerMaskIsReplacedWhole
  exact fun s d => ⟨_, exec_wrTmrIntrEn d s, by simp, s.timerUpdate_recompute_frame _⟩

/-! Enable and disable. -/

theorem exec_tmrEnable_of_enabled {s : State} (h : s.tmr.enabled = true) : exec .tmrEnable s = .next s.ack := if_pos h

theorem exec_tmrEnable_of_disabled {s : State} (h : s.tmr.enabled = false) :
    exec .tmrEnable s = .next (s.enableAt s.now).ack := if_neg (by simp [h])

theorem exec_tmrDisable_of_disabled {s : State} (h : s.tmr.enabled = false) : exec .tmrDisable s = .next s.ack :=
  if_neg (by simp [h])

/-- Settles O48, by the state of the timer. -/
theorem enableStartsFromTheStoredCount : Obligations.EnableStartsFromTheStoredCount := by
  unfold Obligations.EnableStartsFromTheStoredCount
  intro s
  cases he : s.tmr.enabled with
  | true => exact exec_tmrEnable_of_enabled he
  | false => exact exec_tmrEnable_of_disabled he

/-- Settles O49: from Enabled `Recompute` keeps the reset timer. -/
theorem disableClearsTheTimer : Obligations.DisableClearsTheTimer := by
  unfold Obligations.DisableClearsTheTimer
  refine fun s => ⟨fun he => ⟨_, exec_tmrDisable_of_enabled he, ?_, s.timerUpdate_recompute_frame _⟩,
    exec_tmrDisable_of_disabled⟩
  simp [Tmr.resetAt]

/-! The monitor's step. -/

theorem exec_alarmCheck_of_due {s : State} (h : s.alarmDue s.now = true) :
    exec .alarmCheck s = .next (s.sync s.now).ack := if_pos h

theorem exec_alarmCheck_of_not_due {s : State} (h : s.alarmDue s.now = false) :
    exec .alarmCheck s = .refused .alarmNotDue := if_neg (by simp [h])

/-- Where the alarm is due, the line and the trace after `Sync` are those of `Recompute` (42_timer.md R176). -/
theorem State.sync_lineRecomputed_of_due {s : State} {t : Nat} (h : s.alarmDue t = true) :
    LineRecomputed s t (s.sync t) := by
  refine ⟨?_, ?_⟩
  · rw [State.sync_irqLine, if_pos h]
  · simp [State.sync_trace, h]

/-- After `Sync` the alarm is not due at the same instant: `Sync` moves the baseline there. -/
theorem State.not_alarmDue_after_sync (s : State) (t : Nat) : (s.sync t).alarmDue t = false := by
  simpa using (s.sync t).not_alarmDue_at_baseline

/-- Settles O50: where the alarm is due the step is `Sync`, whose crossing raises the alarm; else it is refused. -/
theorem alarmCheckFiresExactlyWhenDue : Obligations.AlarmCheckFiresExactlyWhenDue := by
  unfold Obligations.AlarmCheckFiresExactlyWhenDue
  refine fun s => ⟨fun hdue => ⟨_, exec_alarmCheck_of_due hdue, rfl, ?pending, ?baseline, ?line, ?notDue⟩,
    exec_alarmCheck_of_not_due⟩
  case pending => rw [State.ack_tmr, State.sync_pending, if_pos hdue, alarmMask_eq]
  case baseline => simp
  case line => exact State.sync_lineRecomputed_of_due hdue
  case notDue => exact s.not_alarmDue_after_sync s.now

end Sys2Proof.Machine
end

section
/-! PROOFS of 43_shell_engines.md: the words of a register block (R221 to R223) and the pending and mask pair of an
interrupt shell (R227 to R232). -/

namespace Sys2Proof.Machine

/-! The words of a register block. -/

theorem exec_rdBlkWord (e off : Nat) (s : State) :
    exec (.rdBlkWord e off) s = .next (s.reply ((s.blkAt e).read (off / 4))) := rfl

theorem exec_wrBlkWord (e off : Nat) (d : Word) (s : State) :
    exec (.wrBlkWord e off d) s = .next (s.writeBlk e (off / 4) d).ack := rfl

/-- A misaligned read answers zero, whatever the word that holds the address (43_shell_engines.md R223). -/
theorem exec_rdBlkMisaligned (e off : Nat) (s : State) : exec (.rdBlkMisaligned e off) s = .next (s.reply 0) := rfl

/-- A misaligned write is acknowledged and ignored (43_shell_engines.md R223). -/
theorem exec_wrBlkMisaligned (e off : Nat) (d : Word) (s : State) :
    exec (.wrBlkMisaligned e off d) s = .next s.ack := rfl

/-- Power-on stores no word of a register block, so each reads zero (10_state.md R50). -/
theorem State.powerOn_blk_read (c : Cfg) (now e i : Nat) : ((State.powerOn c now).blkAt e).read i = 0 := by
  obtain ⟨-, -, hblk⟩ := State.registers_zero_of_empty (s := State.powerOn c now) rfl rfl rfl
  exact hblk e i

@[simp] theorem State.ack_blkAt (s : State) (e : Nat) : s.ack.blkAt e = s.blkAt e := rfl

/-- The written block's memory is the old one with the word replaced. -/
theorem State.writeBlk_blkAt_same {s : State} (h : Store.wf [] s.blk = true) (e i : Nat) (d : Word) :
    (s.writeBlk e i d).blkAt e = (s.blkAt e).write i d := Store.read_write_same h

theorem State.writeBlk_blkAt_other (s : State) {e f : Nat} (hf : f ≠ e) (i : Nat) (d : Word) :
    (s.writeBlk e i d).blkAt f = s.blkAt f := Store.read_write_other _ hf

/-- A write of a word leaves every other word of every block (43_shell_engines.md R222). -/
theorem State.writeBlk_read_other {s : State} (h : Store.wf [] s.blk = true) {e i f j : Nat} (d : Word)
    (hother : f ≠ e ∨ j ≠ i) : ((s.writeBlk e i d).blkAt f).read j = (s.blkAt f).read j := by
  by_cases hf : f = e
  · subst hf
    rw [State.writeBlk_blkAt_same h, Memory.read_write_other d (hother.resolve_left fun hne => hne rfl)]
  · rw [s.writeBlk_blkAt_other hf]

/-- Settles O51: the read replies with the stored word, and replying writes the returned value alone. -/
theorem blkReadsReturnTheStoredWord : Obligations.BlkReadsReturnTheStoredWord := by
  unfold Obligations.BlkReadsReturnTheStoredWord
  exact ⟨fun s e off => exec_rdBlkWord e off s, State.powerOn_blk_read⟩

/-- Settles O52: the canonical outer store reads back the written block, whose canonical memory reads back the word. -/
theorem blkWritesStoreOneWord : Obligations.BlkWritesStoreOneWord := by
  unfold Obligations.BlkWritesStoreOneWord
  refine fun s e off d hblk hmem => ⟨_, exec_wrBlkWord e off d s, ?word, fun f j hother => ?other, rfl⟩
  case word => rw [State.ack_blkAt, State.writeBlk_blkAt_same hblk, Memory.read_write_same hmem]
  case other => rw [State.ack_blkAt, State.writeBlk_read_other hblk d hother]

/-- Settles O53: replying and acknowledging write the returned value alone. -/
theorem blkMisalignedAccessesHaveNoEffect : Obligations.BlkMisalignedAccessesHaveNoEffect := by
  unfold Obligations.BlkMisalignedAccessesHaveNoEffect
  exact fun s e off d => ⟨exec_rdBlkMisaligned e off s, exec_wrBlkMisaligned e off d s⟩

/-! The accesses of an interrupt shell that change no pair. -/

theorem exec_rdShellIntr (e : Nat) (s : State) :
    exec (.rdShellIntr e) s = .next (s.reply (s.shellAt e).pending) := rfl

theorem exec_rdShellIntrEn (e : Nat) (s : State) :
    exec (.rdShellIntrEn e) s = .next (s.reply (s.shellAt e).mask) := rfl

/-- A read at an offset that is no register's answers zero (43_shell_engines.md R231). -/
theorem exec_rdShellOther (e off : Nat) (s : State) : exec (.rdShellOther e off) s = .next (s.reply 0) := rfl

/-- A write at an offset that is no register's is acknowledged and ignored (43_shell_engines.md R231). -/
theorem exec_wrShellOther (e off : Nat) (d : Word) (s : State) : exec (.wrShellOther e off d) s = .next s.ack := rfl

/-- Settles O54: each read replies with its half of the pair, and replying writes the returned value alone. -/
theorem shellReadsReturnThePair : Obligations.ShellReadsReturnThePair := by
  unfold Obligations.ShellReadsReturnThePair
  exact fun s e => ⟨exec_rdShellIntr e s, exec_rdShellIntrEn e s⟩

/-- Settles O58: replying and acknowledging write the returned value alone. -/
theorem shellOtherOffsetsHaveNoEffect : Obligations.ShellOtherOffsetsHaveNoEffect := by
  unfold Obligations.ShellOtherOffsetsHaveNoEffect
  exact fun s e off d => ⟨exec_rdShellOther e off s, exec_wrShellOther e off d s⟩

/-! The operations that replace the pair of one shell and then run `Recompute`. -/

theorem exec_wrShellIntr (e : Nat) (d : Word) (s : State) : exec (.wrShellIntr e d) s =
    .next ((s.setShell e { s.shellAt e with pending := clearBits (s.shellAt e).pending d }).recompute s.now).ack := rfl

theorem exec_wrShellIntrEn (e : Nat) (d : Word) (s : State) : exec (.wrShellIntrEn e d) s =
    .next ((s.setShell e { s.shellAt e with mask := d }).recompute s.now).ack := rfl

theorem exec_hwEvent (e : Nat) (bits : Word) (s : State) : exec (.hwEvent e bits) s =
    .next ((s.setShell e { s.shellAt e with pending := (s.shellAt e).pending ||| bits }).recompute s.now).ack := rfl

@[simp] theorem State.ack_shellAt (s : State) (e : Nat) : s.ack.shellAt e = s.shellAt e := rfl

/-- `Recompute` leaves every pair (40_dispatcher.md R130). -/
@[simp] theorem State.recompute_shellAt (s : State) (t e : Nat) : (s.recompute t).shellAt e = s.shellAt e := by
  simp [State.shellAt]

theorem State.setShell_shellAt_same {s : State} (h : Store.wf { pending := 0, mask := 0 } s.shell = true) (e : Nat)
    (x : Shell) : (s.setShell e x).shellAt e = x := Store.read_write_same h

theorem State.setShell_shellAt_other (s : State) {e f : Nat} (hf : f ≠ e) (x : Shell) :
    (s.setShell e x).shellAt f = s.shellAt f := Store.read_write_other x hf

/-- An operation that replaces the pair of shell `e` by `x`, runs `Recompute` and returns nothing leaves `x` there and
the rest of the state as it was (43_shell_engines.md R229, R230, R232). -/
theorem State.shellUpdate_recompute {s : State} (h : Store.wf { pending := 0, mask := 0 } s.shell = true) (e : Nat)
    (x : Shell) :
    let t := ((s.setShell e x).recompute s.now).ack
    t.shellAt e = x ∧ (∀ f, f ≠ e → t.shellAt f = s.shellAt f) ∧
      LineRecomputed s s.now t ∧ t.tmr = s.tmr ∧ SameStorage s t ∧ SameFrame s t ∧ t.rdata = none := by
  refine ⟨?same, fun f hf => ?other, State.recompute_lineRecomputed rfl rfl s.now, ?tmr, ?storage, ?frame, rfl⟩
  case same => simpa using State.setShell_shellAt_same h e x
  case other => simpa using s.setShell_shellAt_other hf x
  case tmr => simp
  case storage => simp [SameStorage]
  case frame => simp [SameFrame]

/-- Settles O55: the new pair is the old one with pending bits cleared. -/
theorem shellPendingIsWriteOneToClear : Obligations.ShellPendingIsWriteOneToClear := by
  unfold Obligations.ShellPendingIsWriteOneToClear
  intro s e d hwf
  obtain ⟨hpair, hrest⟩ := State.shellUpdate_recompute hwf e
    { s.shellAt e with pending := clearBits (s.shellAt e).pending d }
  refine ⟨_, exec_wrShellIntr e d s, fun b => ?bit, ?mask, hrest⟩
  case bit => rw [hpair, clearBits_getLsbD]
  case mask => rw [hpair]

/-- Settles O56: the new pair is the old one with the mask replaced. -/
theorem shellMaskIsReplacedWhole : Obligations.ShellMaskIsReplacedWhole := by
  unfold Obligations.ShellMaskIsReplacedWhole
  exact fun s e d hwf => ⟨_, exec_wrShellIntrEn e d s, State.shellUpdate_recompute hwf e _⟩

/-- Settles O57: the new pair is the old one with pending bits set. -/
theorem hwEventSetsPendingBits : Obligations.HwEventSetsPendingBits := by
  unfold Obligations.HwEventSetsPendingBits
  intro s e bits hwf
  obtain ⟨hpair, hrest⟩ := State.shellUpdate_recompute hwf e
    { s.shellAt e with pending := (s.shellAt e).pending ||| bits }
  refine ⟨_, exec_hwEvent e bits s, fun b => ?bit, ?mask, hrest⟩
  case bit => rw [hpair, BitVec.getLsbD_or]
  case mask => rw [hpair]

end Sys2Proof.Machine
end

section
/-! PROOFS of 30_encoding.md: the decoder reads back what the encoder writes and the encoder what the decoder reads
(R90 to R93), no MMIO transaction is illegal (R100), and the count reassembles from its views (R97). -/

namespace Sys2Proof

open Sys2Proof.Machine (isMmioPacket isMmioPacket_iff timeLoView timeHiView timeLoView_toNat timeHiView_toNat)

/-! The transaction at an offset of a window, and where it is routed. -/

/-- What the two checks of an engine in `Instr.wf` say. -/
theorem Cfg.holdsAt_iff {c : Cfg} {e : Nat} {k : EngineKind} {p : Engine → Bool} :
    c.holdsAt e k p = true ↔ ∃ en, c.engineAt e = some en ∧ en.kind = k ∧ p en = true := by
  unfold Cfg.holdsAt
  cases c.engineAt e <;> simp

theorem Cfg.holdsFirst_iff {c : Cfg} {k : EngineKind} {p : Engine → Bool} :
    c.holdsFirst k p = true ↔ ∃ en, c.firstOf k = some en ∧ p en = true := by
  unfold Cfg.holdsFirst
  cases c.firstOf k <;> simp

/-- A check of two parts, one of them of the operation alone. -/
theorem Cfg.holdsAt_and {c : Cfg} {e : Nat} {k : EngineKind} {p : Engine → Bool} {q : Prop} [Decidable q]
    (h : c.holdsAt e k (fun en => p en && decide q) = true) : c.holdsAt e k p = true ∧ q := by
  obtain ⟨en, he, hk, hpq⟩ := Cfg.holdsAt_iff.mp h
  simp only [Bool.and_eq_true, decide_eq_true_eq] at hpq
  exact ⟨Cfg.holdsAt_iff.mpr ⟨en, he, hk, hpq.1⟩, hpq.2⟩

/-- An address in no window is an operand of the unmapped operations (40_dispatcher.md R121). -/
theorem unmapped_of_route {c : Cfg} {addr : Word} (hr : route c addr = none) : c.unmapped addr = true := by
  simp only [Cfg.unmapped, List.all_eq_true, Bool.not_eq_true']
  intro en hen
  obtain ⟨e, he⟩ := List.mem_iff_getElem?.mp hen
  exact route_eq_none_iff.mp hr e en he

theorem route_of_unmapped {c : Cfg} {addr : Word} (h : c.unmapped addr = true) : route c addr = none := by
  simp only [Cfg.unmapped, List.all_eq_true, Bool.not_eq_true'] at h
  exact route_eq_none_iff.mpr fun e en he => h en (List.mem_of_getElem? he)

/-- An offset inside a window is routed to its engine and comes back. -/
theorem route_base_add {c : Cfg} (hc : c.wf = true) {e off : Nat} {en : Engine} (he : c.engineAt e = some en)
    (hoff : off < en.size) : route c (BitVec.ofNat 32 (en.base + off)) = some ⟨e, en, off⟩ := by
  obtain ⟨-, hspace, -, -⟩ := Cfg.window_of_wf hc he
  have haddr : (BitVec.ofNat 32 (en.base + off)).toNat = en.base + off := by
    rw [BitVec.toNat_ofNat]; exact Nat.mod_eq_of_lt (by omega)
  refine route_of_contains hc he ?_ ?_
  · rw [haddr, Engine.contains_iff]; exact ⟨Nat.le_add_right _ _, Nat.add_lt_add_left hoff _⟩
  · rw [haddr, Nat.add_sub_cancel_left]

/-- The address at an offset of the engine at a position is routed there. -/
theorem route_addrAt {c : Cfg} (hc : c.wf = true) {e off : Nat} {k : EngineKind}
    (h : c.holdsAt e k (fun en => decide (off < en.size)) = true) :
    ∃ en, en.kind = k ∧ route c (addrAt c e off) = some ⟨e, en, off⟩ := by
  obtain ⟨en, he, hk, hoff⟩ := Cfg.holdsAt_iff.mp h
  refine ⟨en, hk, ?_⟩
  simpa [addrAt, he] using route_base_add hc he (of_decide_eq_true hoff)

/-- The address at an offset of the clock generator or of the timer is routed there. -/
theorem route_addrInFirst {c : Cfg} (hc : c.wf = true) {off : Nat} {k : EngineKind} (hk : k = .clkGen ∨ k = .timer)
    (h : c.holdsFirst k (fun en => decide (off < en.size)) = true) :
    ∃ e en, en.kind = k ∧ route c (addrInFirst c k off) = some ⟨e, en, off⟩ := by
  obtain ⟨e, en, hfirst, he, hkind, -⟩ := Cfg.firstOf_unique hc hk
  obtain ⟨en', hfirst', hoff⟩ := Cfg.holdsFirst_iff.mp h
  cases hfirst.symm.trans hfirst'
  refine ⟨e, en, hkind, ?_⟩
  simpa [addrInFirst, hfirst] using route_base_add hc he (of_decide_eq_true hoff)

/-- A register of the clock generator or of the timer lies in its window (00_scope.md R8 (e)). -/
theorem Cfg.holdsFirst_of_register {c : Cfg} (hc : c.wf = true) {off : Nat} {k : EngineKind}
    (hk : k = .clkGen ∨ k = .timer) (ho : off ∈ c.offsOf k) :
    c.holdsFirst k (fun en => decide (off < en.size)) = true := by
  obtain ⟨e, en, hfirst, he, hkind, -⟩ := Cfg.firstOf_unique hc hk
  exact Cfg.holdsFirst_iff.mpr ⟨en, hfirst, decide_eq_true (Cfg.offset_of_wf hc he (hkind ▸ ho)).2⟩

/-- A register of an interrupt shell lies in its window (00_scope.md R8 (e)). -/
theorem Cfg.holdsAt_of_register {c : Cfg} (hc : c.wf = true) {e off : Nat}
    (he : c.holdsAt e .intrShell (fun _ => true) = true) (ho : off ∈ c.shellOffs) :
    c.holdsAt e .intrShell (fun en => decide (off < en.size)) = true := by
  obtain ⟨en, hen, hk, -⟩ := Cfg.holdsAt_iff.mp he
  refine Cfg.holdsAt_iff.mpr ⟨en, hen, hk, decide_eq_true (Cfg.offset_of_wf hc hen ?_).2⟩
  rw [hk]; exact ho

/-- The first byte of an interrupt shell lies in its window: no window is empty (00_scope.md R8 (a)). -/
theorem Cfg.holdsAt_base {c : Cfg} (hc : c.wf = true) {e : Nat}
    (he : c.holdsAt e .intrShell (fun _ => true) = true) :
    c.holdsAt e .intrShell (fun en => decide (0 < en.size)) = true := by
  obtain ⟨en, hen, hk, -⟩ := Cfg.holdsAt_iff.mp he
  obtain ⟨hpos, -, -, -⟩ := Cfg.window_of_wf hc hen
  exact Cfg.holdsAt_iff.mpr ⟨en, hen, hk, decide_eq_true hpos⟩

/-- The rows of spec/opcode_table.json: the read and the write that the engine at position `id`, of this kind, has at
an offset of its window (30_encoding.md R92). `row_of_routed` and `Row.decodes` tie
the rows to the decoder. -/
inductive Row (c : Cfg) (id : Nat) : EngineKind → Nat → Instr → (Word → Instr) → Prop
  | clkCore : Row c id .clkGen c.clkCoreOff .rdClkCore .wrClkCore
  | clkMem : Row c id .clkGen c.clkMemOff .rdClkMem .wrClkMem
  | clkVid : Row c id .clkGen c.clkVidOff .rdClkVid .wrClkVid
  | clkWord {off : Nat} (haligned : off % 4 = 0) (hother : off ∉ c.clkOffs) :
      Row c id .clkGen off (.rdClkWord off) (.wrClkWord off)
  | clkMisaligned {off : Nat} (hmis : off % 4 ≠ 0) : Row c id .clkGen off (.rdClkMisaligned off) (.wrClkMisaligned off)
  | tmrIntr : Row c id .timer c.tmrIntrOff .rdTmrIntr .wrTmrIntr
  | tmrIntrEn : Row c id .timer c.tmrIntrEnOff .rdTmrIntrEn .wrTmrIntrEn
  | tmrMul : Row c id .timer c.tmrMulOff .rdTmrMul .wrTmrMul
  | tmrDiv : Row c id .timer c.tmrDivOff .rdTmrDiv .wrTmrDiv
  | tmrTimeLo : Row c id .timer c.tmrTimeLoOff .rdTmrTimeLo .wrTmrTimeLo
  | tmrTimeHi : Row c id .timer c.tmrTimeHiOff .rdTmrTimeHi .wrTmrTimeHi
  | tmrAlarm : Row c id .timer c.tmrAlarmOff .rdTmrAlarm .wrTmrAlarm
  | tmrOther {off : Nat} (hother : off ∉ c.tmrOffs) : Row c id .timer off (.rdTmrOther off) (.wrTmrOther off)
  | blkWord {off : Nat} (haligned : off % 4 = 0) : Row c id .regBlock off (.rdBlkWord id off) (.wrBlkWord id off)
  | blkMisaligned {off : Nat} (hmis : off % 4 ≠ 0) :
      Row c id .regBlock off (.rdBlkMisaligned id off) (.wrBlkMisaligned id off)
  | shellIntr : Row c id .intrShell c.shellIntrOff (.rdShellIntr id) (.wrShellIntr id)
  | shellIntrEn : Row c id .intrShell c.shellIntrEnOff (.rdShellIntrEn id) (.wrShellIntrEn id)
  | shellOther {off : Nat} (hother : off ∉ c.shellOffs) :
      Row c id .intrShell off (.rdShellOther id off) (.wrShellOther id off)


/-- The decoder selects the row of the engine and the offset it is given (30_encoding.md R93). -/
theorem row_of_routed (c : Cfg) (r : Routed) :
    Row c r.id r.engine.kind r.off (decodeRead c r) (fun d => decodeWrite c r d) := by
  simp only [decodeRead, decodeWrite]
  generalize r.off = off
  cases r.engine.kind with
  | clkGen =>
    dsimp only
    split_ifs with hmis hcore hmem hvid
    · exact .clkMisaligned hmis
    · subst hcore; exact .clkCore
    · subst hmem; exact .clkMem
    · subst hvid; exact .clkVid
    · exact .clkWord (not_not.mp hmis) (by simp [Cfg.clkOffs, hcore, hmem, hvid])
  | regBlock =>
    dsimp only
    split_ifs with hmis
    · exact .blkMisaligned hmis
    · exact .blkWord (not_not.mp hmis)
  | timer =>
    dsimp only
    split_ifs with h1 h2 h3 h4 h5 h6 h7
    · subst h1; exact .tmrIntr
    · subst h2; exact .tmrIntrEn
    · subst h3; exact .tmrMul
    · subst h4; exact .tmrDiv
    · subst h5; exact .tmrTimeLo
    · subst h6; exact .tmrTimeHi
    · subst h7; exact .tmrAlarm
    · exact .tmrOther (by simp [Cfg.tmrOffs, *])
  | intrShell =>
    dsimp only
    split_ifs with hintr hen
    · subst hintr; exact .shellIntr
    · subst hen; exact .shellIntrEn
    · exact .shellOther (by simp [Cfg.shellOffs, hintr, hen])
/-- The coefficient words are aligned (00_scope.md R8 (e)). -/
theorem Cfg.clkOffs_aligned {c : Cfg} (hc : c.wf = true) {off : Nat} (ho : off ∈ c.clkOffs) : off % 4 = 0 := by
  obtain ⟨e, en, -, he, hkind, -⟩ := Cfg.firstOf_unique hc (.inl rfl : EngineKind.clkGen = .clkGen ∨ _)
  exact (Cfg.offset_of_wf hc he (by rw [hkind]; exact ho)).1

/-- The decoder selects the row of the engine and the offset (30_encoding.md R93): no two registers of a kind share
an offset, and the coefficient words are aligned. -/
theorem Row.decodes {c : Cfg} (hc : c.wf = true) {r : Routed} {rd : Instr} {wr : Word → Instr}
    (h : Row c r.id r.engine.kind r.off rd wr) : decodeRead c r = rd ∧ ∀ d, decodeWrite c r d = wr d := by
  obtain ⟨hclk, htmr, hshell⟩ := Cfg.offsets_nodup hc
  have haligned : ∀ o ∈ c.clkOffs, o % 4 = 0 := fun o => Cfg.clkOffs_aligned hc
  simp only [Cfg.clkOffs, Cfg.tmrOffs, Cfg.shellOffs, List.nodup_cons, List.mem_cons, List.not_mem_nil, or_false,
    not_or, forall_eq_or_imp, forall_eq] at hclk htmr hshell haligned
  generalize hk : r.engine.kind = k at h
  generalize ho : r.off = off at h
  cases h
  case clkCore | clkMem | clkVid => simp [decodeRead, decodeWrite, hk, ho, haligned, eq_comm, hclk]
  case tmrIntr | tmrIntrEn | tmrMul | tmrDiv | tmrTimeLo | tmrTimeHi | tmrAlarm =>
    simp [decodeRead, decodeWrite, hk, ho, eq_comm, htmr]
  case shellIntr | shellIntrEn => simp [decodeRead, decodeWrite, hk, ho, eq_comm, hshell]
  case blkWord hoff | blkMisaligned hoff | clkMisaligned hoff => simp [decodeRead, decodeWrite, hk, ho, hoff]
  case clkWord hoff hother =>
    simp only [Cfg.clkOffs, List.mem_cons, List.not_mem_nil, or_false, not_or] at hother
    simp [decodeRead, decodeWrite, hk, ho, hoff, hother]
  case tmrOther hother =>
    simp only [Cfg.tmrOffs, List.mem_cons, List.not_mem_nil, or_false, not_or] at hother
    simp [decodeRead, decodeWrite, hk, ho, hother]
  case shellOther hother =>
    simp only [Cfg.shellOffs, List.mem_cons, List.not_mem_nil, or_false, not_or] at hother
    simp [decodeRead, decodeWrite, hk, ho, hother]

/-! Decode of encode. -/

/-- A row of the clock generator or of the timer reads back from its offset. -/
theorem Row.decode_in_first {c : Cfg} (hc : c.wf = true) {k : EngineKind} (hk : k = .clkGen ∨ k = .timer) {off : Nat}
    (hin : c.holdsFirst k (fun en => decide (off < en.size)) = true) {rd : Instr} {wr : Word → Instr}
    (h : ∀ id, Row c id k off rd wr) :
    decode c (rdPacket (addrInFirst c k off)) = .ok rd ∧
      ∀ d, decode c (wrPacket (addrInFirst c k off) d) = .ok (wr d) := by
  obtain ⟨e, en, hkind, hr⟩ := route_addrInFirst hc hk hin
  obtain ⟨hrd, hwr⟩ := Row.decodes hc (r := ⟨e, en, off⟩) (hkind ▸ h e)
  exact ⟨hrd ▸ decode_routed_read rfl hr, fun d => hwr d ▸ decode_routed_write rfl hr⟩

/-- A register of the clock generator or of the timer reads back. -/
theorem Row.decode_register {c : Cfg} (hc : c.wf = true) {k : EngineKind} {off : Nat} {rd : Instr} {wr : Word → Instr}
    (h : ∀ id, Row c id k off rd wr) (hk : k = .clkGen ∨ k = .timer := by simp)
    (ho : off ∈ c.offsOf k := by simp [Cfg.offsOf, Cfg.clkOffs, Cfg.tmrOffs]) :
    decode c (rdPacket (addrInFirst c k off)) = .ok rd ∧
      ∀ d, decode c (wrPacket (addrInFirst c k off) d) = .ok (wr d) :=
  Row.decode_in_first hc hk (Cfg.holdsFirst_of_register hc hk ho) h

/-- A row of the engine at a position reads back from its offset. -/
theorem Row.decode_at {c : Cfg} (hc : c.wf = true) {e off : Nat} {k : EngineKind}
    (hin : c.holdsAt e k (fun en => decide (off < en.size)) = true) {rd : Instr} {wr : Word → Instr}
    (h : Row c e k off rd wr) :
    decode c (rdPacket (addrAt c e off)) = .ok rd ∧ ∀ d, decode c (wrPacket (addrAt c e off) d) = .ok (wr d) := by
  obtain ⟨en, hkind, hr⟩ := route_addrAt hc hin
  obtain ⟨hrd, hwr⟩ := Row.decodes hc (r := ⟨e, en, off⟩) (hkind ▸ h)
  exact ⟨hrd ▸ decode_routed_read rfl hr, fun d => hwr d ▸ decode_routed_write rfl hr⟩

/-- An aligned word of the clock generator that is no coefficient reads back. -/
theorem decode_encode_clkWord {c : Cfg} (hc : c.wf = true) {off : Nat} (h : c.clkPlainOff off = true) :
    decode c (encode c (.rdClkWord off)) = .ok (.rdClkWord off) ∧
      ∀ d, decode c (encode c (.wrClkWord off d)) = .ok (.wrClkWord off d) := by
  simp only [Cfg.clkPlainOff, Bool.and_eq_true, decide_eq_true_eq] at h
  obtain ⟨⟨hin, hal⟩, hother⟩ := h
  exact Row.decode_in_first hc (.inl rfl) hin fun _ => .clkWord hal hother

/-- A misaligned offset of the clock generator reads back. -/
theorem decode_encode_clkMisaligned {c : Cfg} (hc : c.wf = true) {off : Nat} (h : c.clkMisOff off = true) :
    decode c (encode c (.rdClkMisaligned off)) = .ok (.rdClkMisaligned off) ∧
      ∀ d, decode c (encode c (.wrClkMisaligned off d)) = .ok (.wrClkMisaligned off d) := by
  simp only [Cfg.clkMisOff, Bool.and_eq_true, decide_eq_true_eq] at h
  obtain ⟨hin, hmis⟩ := h
  exact Row.decode_in_first hc (.inl rfl) hin fun _ => .clkMisaligned hmis

/-- An offset of the timer that is no register reads back. -/
theorem decode_encode_tmrOther {c : Cfg} (hc : c.wf = true) {off : Nat} (h : c.tmrOtherOff off = true) :
    decode c (encode c (.rdTmrOther off)) = .ok (.rdTmrOther off) ∧
      ∀ d, decode c (encode c (.wrTmrOther off d)) = .ok (.wrTmrOther off d) := by
  simp only [Cfg.tmrOtherOff, Bool.and_eq_true, decide_eq_true_eq] at h
  obtain ⟨hin, hother⟩ := h
  exact Row.decode_in_first hc (.inr rfl) hin fun _ => .tmrOther hother

/-- A word of a register block reads back. -/
theorem decode_encode_blkWord {c : Cfg} (hc : c.wf = true) {e off : Nat}
    (h : c.holdsAt e .regBlock (fun en => decide (off < en.size) && decide (off % 4 = 0)) = true) :
    decode c (encode c (.rdBlkWord e off)) = .ok (.rdBlkWord e off) ∧
      ∀ d, decode c (encode c (.wrBlkWord e off d)) = .ok (.wrBlkWord e off d) := by
  obtain ⟨hin, hal⟩ := Cfg.holdsAt_and h
  exact Row.decode_at hc hin (.blkWord hal)

/-- A misaligned offset of a register block reads back. -/
theorem decode_encode_blkMisaligned {c : Cfg} (hc : c.wf = true) {e off : Nat}
    (h : c.holdsAt e .regBlock (fun en => decide (off < en.size) && decide (off % 4 ≠ 0)) = true) :
    decode c (encode c (.rdBlkMisaligned e off)) = .ok (.rdBlkMisaligned e off) ∧
      ∀ d, decode c (encode c (.wrBlkMisaligned e off d)) = .ok (.wrBlkMisaligned e off d) := by
  obtain ⟨hin, hmis⟩ := Cfg.holdsAt_and h
  exact Row.decode_at hc hin (.blkMisaligned hmis)

/-- An offset of an interrupt shell that is neither of its registers reads back. -/
theorem decode_encode_shellOther {c : Cfg} (hc : c.wf = true) {e off : Nat} (h : c.shellOtherOff e off = true) :
    decode c (encode c (.rdShellOther e off)) = .ok (.rdShellOther e off) ∧
      ∀ d, decode c (encode c (.wrShellOther e off d)) = .ok (.wrShellOther e off d) := by
  simp only [Cfg.shellOtherOff, Bool.and_eq_true, decide_eq_true_eq] at h
  obtain ⟨hin, hother⟩ := h
  exact Row.decode_at hc hin (.shellOther hother)

/-- A hardware event reads back: its address is the first of the window. -/
theorem decode_encode_hwEvent {c : Cfg} (hc : c.wf = true) {e : Nat}
    (h : c.holdsAt e .intrShell (fun _ => true) = true) (bits : Word) :
    decode c (encode c (.hwEvent e bits)) = .ok (.hwEvent e bits) := by
  obtain ⟨en, hkind, hr⟩ := route_addrAt hc (Cfg.holdsAt_base hc h)
  show decodeHwEvent c _ = _
  simp [decodeHwEvent, hr, hkind, encode]

/-- Settles O2: the address of an operation is routed to its row, whose read and write the decoder selects. -/
theorem decodeReadsBackEveryEncoding : Obligations.DecodeReadsBackEveryEncoding := by
  unfold Obligations.DecodeReadsBackEveryEncoding
  intro c i hc hi
  have hshell : ∀ {e off}, c.holdsAt e .intrShell (fun _ => true) = true → off ∈ c.shellOffs →
      c.holdsAt e .intrShell (fun en => decide (off < en.size)) = true := Cfg.holdsAt_of_register hc
  cases i with
  | rdUnmapped addr => exact decode_unmapped_read rfl (route_of_unmapped hi)
  | wrUnmapped addr d => exact decode_unmapped_write rfl (route_of_unmapped hi)
  | rdClkCore => exact (Row.decode_register hc fun _ => .clkCore).1
  | rdClkMem => exact (Row.decode_register hc fun _ => .clkMem).1
  | rdClkVid => exact (Row.decode_register hc fun _ => .clkVid).1
  | wrClkCore d => exact (Row.decode_register hc fun _ => .clkCore).2 d
  | wrClkMem d => exact (Row.decode_register hc fun _ => .clkMem).2 d
  | wrClkVid d => exact (Row.decode_register hc fun _ => .clkVid).2 d
  | rdClkWord off => exact (decode_encode_clkWord hc hi).1
  | wrClkWord off d => exact (decode_encode_clkWord hc hi).2 d
  | rdClkMisaligned off => exact (decode_encode_clkMisaligned hc hi).1
  | wrClkMisaligned off d => exact (decode_encode_clkMisaligned hc hi).2 d
  | rdTmrIntr => exact (Row.decode_register hc fun _ => .tmrIntr).1
  | rdTmrIntrEn => exact (Row.decode_register hc fun _ => .tmrIntrEn).1
  | rdTmrMul => exact (Row.decode_register hc fun _ => .tmrMul).1
  | rdTmrDiv => exact (Row.decode_register hc fun _ => .tmrDiv).1
  | rdTmrTimeLo => exact (Row.decode_register hc fun _ => .tmrTimeLo).1
  | rdTmrTimeHi => exact (Row.decode_register hc fun _ => .tmrTimeHi).1
  | rdTmrAlarm => exact (Row.decode_register hc fun _ => .tmrAlarm).1
  | wrTmrIntr d => exact (Row.decode_register hc fun _ => .tmrIntr).2 d
  | wrTmrIntrEn d => exact (Row.decode_register hc fun _ => .tmrIntrEn).2 d
  | wrTmrMul d => exact (Row.decode_register hc fun _ => .tmrMul).2 d
  | wrTmrDiv d => exact (Row.decode_register hc fun _ => .tmrDiv).2 d
  | wrTmrTimeLo d => exact (Row.decode_register hc fun _ => .tmrTimeLo).2 d
  | wrTmrTimeHi d => exact (Row.decode_register hc fun _ => .tmrTimeHi).2 d
  | wrTmrAlarm d => exact (Row.decode_register hc fun _ => .tmrAlarm).2 d
  | rdTmrOther off => exact (decode_encode_tmrOther hc hi).1
  | wrTmrOther off d => exact (decode_encode_tmrOther hc hi).2 d
  | rdBlkWord e off => exact (decode_encode_blkWord hc hi).1
  | wrBlkWord e off d => exact (decode_encode_blkWord hc hi).2 d
  | rdBlkMisaligned e off => exact (decode_encode_blkMisaligned hc hi).1
  | wrBlkMisaligned e off d => exact (decode_encode_blkMisaligned hc hi).2 d
  | rdShellIntr e => exact (Row.decode_at hc (hshell hi (by simp [Cfg.shellOffs])) .shellIntr).1
  | rdShellIntrEn e => exact (Row.decode_at hc (hshell hi (by simp [Cfg.shellOffs])) .shellIntrEn).1
  | wrShellIntr e d => exact (Row.decode_at hc (hshell hi (by simp [Cfg.shellOffs])) .shellIntr).2 d
  | wrShellIntrEn e d => exact (Row.decode_at hc (hshell hi (by simp [Cfg.shellOffs])) .shellIntrEn).2 d
  | rdShellOther e off => exact (decode_encode_shellOther hc hi).1
  | wrShellOther e off d => exact (decode_encode_shellOther hc hi).2 d
  | hwEvent e bits => exact decode_encode_hwEvent hc hi bits
  | reset | tmrEnable | tmrDisable | alarmCheck => rfl

/-! Encode of decode. -/

/-- The offset that `route` answers lies in the window, and the address is found from it again. -/
theorem addr_of_route {c : Cfg} {addr : Word} {r : Routed} (hr : route c addr = some r) :
    r.off < r.engine.size ∧ BitVec.ofNat 32 (r.engine.base + r.off) = addr := by
  obtain ⟨-, hin, hoff⟩ := route_sound hr
  obtain ⟨hlo, hhi⟩ := (Engine.contains_iff _ _).mp hin
  have haddr : r.engine.base + r.off = addr.toNat := by omega
  exact ⟨by omega, by rw [haddr]; exact BitVec.eq_of_toNat_eq (by simp)⟩

/-- What an operation by position needs of a routed address. -/
theorem at_of_route {c : Cfg} {addr : Word} {r : Routed} (hr : route c addr = some r) :
    (∀ p, c.holdsAt r.id r.engine.kind p = p r.engine) ∧ r.off < r.engine.size ∧ addrAt c r.id r.off = addr := by
  obtain ⟨he, -, -⟩ := route_sound hr
  obtain ⟨hoff, haddr⟩ := addr_of_route hr
  exact ⟨fun p => by simp [Cfg.holdsAt, he], hoff, by simpa [addrAt, he] using haddr⟩

/-- What an operation of the clock generator or of the timer needs of a routed address: there is one such engine. -/
theorem first_of_route {c : Cfg} (hc : c.wf = true) {addr : Word} {r : Routed} (hr : route c addr = some r)
    (hk : r.engine.kind = .clkGen ∨ r.engine.kind = .timer) :
    (∀ p, c.holdsFirst r.engine.kind p = p r.engine) ∧ r.off < r.engine.size ∧
      addrInFirst c r.engine.kind r.off = addr := by
  obtain ⟨he, -, -⟩ := route_sound hr
  obtain ⟨hoff, haddr⟩ := addr_of_route hr
  obtain ⟨-, en, hfirst, -, -, hunique⟩ := Cfg.firstOf_unique hc hk
  cases hunique _ _ he rfl
  exact ⟨fun p => by simp [Cfg.holdsFirst, hfirst], hoff, by simpa [addrInFirst, hfirst] using haddr⟩

/-- `i` is a well-formed operation and `p` its transaction. -/
def Encodes (c : Cfg) (i : Instr) (p : Packet) : Prop := i.wf c = true ∧ encode c i = p

/-- The row that an address is routed to is well formed and encodes to a transaction at that address. -/
theorem Row.encodes {c : Cfg} (hc : c.wf = true) {addr : Word} {r : Routed} (hr : route c addr = some r) {rd : Instr}
    {wr : Word → Instr} (h : Row c r.id r.engine.kind r.off rd wr) :
    Encodes c rd (rdPacket addr) ∧ ∀ d, Encodes c (wr d) (wrPacket addr d) := by
  obtain ⟨hat, hoff, haddrAt⟩ := at_of_route hr
  have hfirst := first_of_route hc hr
  generalize hk : r.engine.kind = k at h hat hfirst
  generalize ho : r.off = off at h hat hfirst hoff haddrAt
  cases h
  case clkCore | clkMem | clkVid | tmrIntr | tmrIntrEn | tmrMul | tmrDiv | tmrTimeLo | tmrTimeHi | tmrAlarm =>
    obtain ⟨-, -, haddr⟩ := hfirst (by simp)
    simp [Encodes, Instr.wf, encode, haddr]
  case clkWord hal hother =>
    obtain ⟨hin, -, haddr⟩ := hfirst (by simp)
    simp [Encodes, Instr.wf, encode, haddr, Cfg.clkPlainOff, hin, hoff, hal, hother]
  case clkMisaligned hmis =>
    obtain ⟨hin, -, haddr⟩ := hfirst (by simp)
    simp [Encodes, Instr.wf, encode, haddr, Cfg.clkMisOff, hin, hoff, hmis]
  case tmrOther hother =>
    obtain ⟨hin, -, haddr⟩ := hfirst (by simp)
    simp [Encodes, Instr.wf, encode, haddr, Cfg.tmrOtherOff, hin, hoff, hother]
  case blkWord h4 | blkMisaligned h4 => simp [Encodes, Instr.wf, encode, haddrAt, hat, hoff, h4]
  case shellIntr | shellIntrEn => simp [Encodes, Instr.wf, encode, haddrAt, hat]
  case shellOther hother => simp [Encodes, Instr.wf, encode, haddrAt, Cfg.shellOtherOff, hat, hoff, hother]

/-- A read decodes to a well-formed operation of which it is the transaction, its `wdata` apart. -/
theorem encodes_decode_read {c : Cfg} (hc : c.wf = true) {p : Packet} (hp : p.ctl = tagRead) :
    ∃ i, decode c p = .ok i ∧ Encodes c i p.canonical := by
  have hcan : p.canonical = rdPacket p.addr := by cases p; simp_all [Packet.canonical, rdPacket]
  rw [hcan]
  cases hr : route c p.addr with
  | none => exact ⟨_, decode_unmapped_read hp hr, unmapped_of_route hr, rfl⟩
  | some r =>
    obtain ⟨henc, -⟩ := (row_of_routed c r).encodes hc hr
    exact ⟨_, decode_routed_read hp hr, henc⟩

/-- A write decodes to a well-formed operation of which it is the transaction. -/
theorem encodes_decode_write {c : Cfg} (hc : c.wf = true) {p : Packet} (hp : p.ctl = tagWrite) :
    ∃ i, decode c p = .ok i ∧ Encodes c i p.canonical := by
  have hcan : p.canonical = wrPacket p.addr p.wdata := by
    cases p; simp_all [Packet.canonical, wrPacket, tagWrite, tagRead]
  rw [hcan]
  cases hr : route c p.addr with
  | none => exact ⟨_, decode_unmapped_write hp hr, unmapped_of_route hr, rfl⟩
  | some r =>
    obtain ⟨-, henc⟩ := (row_of_routed c r).encodes hc hr
    exact ⟨_, decode_routed_write hp hr, henc p.wdata⟩

/-- An environment operation without operands is the transaction of its tag alone (30_encoding.md R91). -/
theorem encodes_of_decodeBare {c : Cfg} {p : Packet} {tag : BitVec 8} {i j : Instr} (hp : p.ctl = tag)
    (hi : Encodes c i (envPacket tag)) (h : decodeBare p i = .ok j) : Encodes c j p := by
  unfold decodeBare at h
  split at h
  · next hzero =>
    obtain ⟨haddr, hdata⟩ := hzero
    have hpacket : p = envPacket tag := by cases p; simp_all [envPacket]
    cases h; rw [hpacket]; exact hi
  · cases h

/-- `HW_EVENT` is the transaction at the base of an interrupt shell (43_shell_engines.md R232). -/
theorem encodes_of_decodeHwEvent {c : Cfg} {p : Packet} {i : Instr} (hp : p.ctl = tagHwEvent)
    (h : decodeHwEvent c p = .ok i) : Encodes c i p := by
  unfold decodeHwEvent at h
  split at h
  · next r hr =>
    split at h
    · next hshell =>
      obtain ⟨hkind, hoff⟩ := hshell
      cases h
      obtain ⟨hat, -, haddr⟩ := at_of_route hr
      rw [hkind] at hat
      rw [hoff] at haddr
      cases p
      simp_all [Encodes, Instr.wf, encode]
    · cases h
  · cases h

/-- Settles O3: by the tag of the packet; the MMIO packets by the row they are routed to. -/
theorem encodeReadsBackEveryDecoding : Obligations.EncodeReadsBackEveryDecoding := by
  unfold Obligations.EncodeReadsBackEveryDecoding
  intro c p i hc h
  by_cases hread : p.ctl = tagRead
  · obtain ⟨j, hj, henc⟩ := encodes_decode_read hc hread
    cases hj.symm.trans h; exact henc
  by_cases hwrite : p.ctl = tagWrite
  · obtain ⟨j, hj, henc⟩ := encodes_decode_write hc hwrite
    cases hj.symm.trans h; exact henc
  rw [show p.canonical = p from if_neg hread]
  simp only [decode, hread, hwrite, if_false] at h
  split_ifs at h with hreset henable hdisable hevent hcheck
  · exact encodes_of_decodeBare hreset ⟨rfl, rfl⟩ h
  · exact encodes_of_decodeBare henable ⟨rfl, rfl⟩ h
  · exact encodes_of_decodeBare hdisable ⟨rfl, rfl⟩ h
  · exact encodes_of_decodeHwEvent hevent h
  · exact encodes_of_decodeBare hcheck ⟨rfl, rfl⟩ h

/-! No MMIO transaction is illegal. -/

/-- Every row is of the MMIO port, and its read and its write have one name. -/
theorem Row.rowName {c : Cfg} {id off : Nat} {k : EngineKind} {rd : Instr} {wr : Word → Instr}
    (h : Row c id k off rd wr) : ∃ n, rd.rowName = some n ∧ ∀ d, (wr d).rowName = some n := by
  cases h <;> exact ⟨_, rfl, fun _ => rfl⟩

/-- What an MMIO packet decodes to: the unmapped pair, or the row it is routed to. -/
theorem decode_mmio_cases {c : Cfg} {p : Packet} {i : Instr} (hp : isMmioPacket p = true) (h : decode c p = .ok i) :
    (route c p.addr = none ∧ (i = .rdUnmapped p.addr ∨ i = .wrUnmapped p.addr p.wdata)) ∨
    ∃ r, route c p.addr = some r ∧ (i = decodeRead c r ∨ i = decodeWrite c r p.wdata) := by
  rcases isMmioPacket_iff.mp hp with hctl | hctl
  · cases hr : route c p.addr with
    | none => cases (decode_unmapped_read hctl hr).symm.trans h; exact .inl ⟨rfl, .inl rfl⟩
    | some r => cases (decode_routed_read hctl hr).symm.trans h; exact .inr ⟨r, rfl, .inl rfl⟩
  · cases hr : route c p.addr with
    | none => cases (decode_unmapped_write hctl hr).symm.trans h; exact .inl ⟨rfl, .inr rfl⟩
    | some r => cases (decode_routed_write hctl hr).symm.trans h; exact .inr ⟨r, rfl, .inr rfl⟩

/-- What an MMIO packet decodes to is a row of the MMIO port, under any configuration. -/
theorem rowName_of_decode_mmio {c : Cfg} {p : Packet} {i : Instr} (hp : isMmioPacket p = true)
    (h : decode c p = .ok i) : i.rowName ≠ none := by
  rcases decode_mmio_cases hp h with ⟨-, rfl | rfl⟩ | ⟨r, -, hi⟩
  · simp [Instr.rowName]
  · simp [Instr.rowName]
  · obtain ⟨n, hrd, hwr⟩ := (row_of_routed c r).rowName
    rcases hi with rfl | rfl
    · simp [hrd]
    · simp [hwr]

/-- Settles O4: a read or a write decodes wherever it is routed. -/
theorem everyMmioTransactionDecodes : Obligations.EveryMmioTransactionDecodes := by
  unfold Obligations.EveryMmioTransactionDecodes
  intro c p hc hp
  have hdec : ∃ i, decode c p = .ok i ∧ Encodes c i p.canonical := by
    rcases isMmioPacket_iff.mp hp with hctl | hctl
    · exact encodes_decode_read hc hctl
    · exact encodes_decode_write hc hctl
  obtain ⟨i, hi, hwf, -⟩ := hdec
  exact ⟨i, hi, hwf, rowName_of_decode_mmio hp hi⟩

/-! REFCFG's transactions, and the two views of the count. -/

/-- Settles O6: the decoder evaluated on the six transactions. -/
theorem referenceTransactionsDecode : Obligations.ReferenceTransactionsDecode := by
  unfold Obligations.ReferenceTransactionsDecode
  decide +kernel

/-- Settles O38: the views are the quotient and the remainder by 2^27, placed by powers of two. -/
theorem countReassemblesFromItsViews : Obligations.CountReassemblesFromItsViews := by
  unfold Obligations.CountReassemblesFromItsViews
  intro t
  have ht := t.isLt
  rw [timeHiView_toNat, timeLoView_toNat]
  omega

end Sys2Proof
end

section
/-! PROOFS of 30_encoding.md R104: under REFCFG the decoder selects the row of the opcode table that matches with the
highest priority. -/

namespace Sys2Proof

open Sys2Proof.Machine (isMmioPacket)

/-! The masks of the table as arithmetic on the address. -/

/-- A mask of the high bits keeps the multiple of a power of two below the address. -/
theorem and_highMask_toNat (a : Word) (k : Nat) : (a &&& BitVec.allOnes 32 <<< k).toNat = a.toNat / 2 ^ k * 2 ^ k := by
  have hshift : a &&& BitVec.allOnes 32 <<< k = a >>> k <<< k := by
    apply BitVec.eq_of_getLsbD_eq
    intro i hi
    simp only [BitVec.getLsbD_and, BitVec.getLsbD_shiftLeft, BitVec.getLsbD_ushiftRight, BitVec.getLsbD_allOnes]
    by_cases h : i < k
    · simp [h]
    · simp [h, hi, show k + (i - k) = i by omega, show i - k < 32 by omega]
  have hlt : a.toNat / 2 ^ k * 2 ^ k < 2 ^ 32 := lt_of_le_of_lt (Nat.div_mul_le_self _ _) a.isLt
  rw [hshift, BitVec.toNat_shiftLeft, BitVec.toNat_ushiftRight, Nat.shiftRight_eq_div_pow, Nat.shiftLeft_eq,
    Nat.mod_eq_of_lt hlt]

/-- The mask of a fallback row with a window of 0x1000 bytes. -/
@[simp] theorem and_mask_window12_iff (a p : Word) : a &&& 0xFFFFF000#32 = p ↔ a.toNat / 2 ^ 12 * 2 ^ 12 = p.toNat := by
  rw [← and_highMask_toNat a 12, BitVec.toNat_inj]; rfl

/-- The mask of a fallback row with a window of 0x2000 bytes. -/
@[simp] theorem and_mask_window13_iff (a p : Word) : a &&& 0xFFFFE000#32 = p ↔ a.toNat / 2 ^ 13 * 2 ^ 13 = p.toNat := by
  rw [← and_highMask_toNat a 13, BitVec.toNat_inj]; rfl

/-- The mask of an aligned word in a window of 0x1000 bytes. -/
@[simp] theorem and_mask_word_iff (a p : Word) :
    a &&& 0xFFFFF003#32 = p ↔ a.toNat / 2 ^ 12 * 2 ^ 12 + a.toNat % 4 = p.toNat := by
  have hmask : (0xFFFFF003#32 : Word) = BitVec.allOnes 32 <<< 12 ||| 3#32 := rfl
  have hlow : (a &&& 3#32).toNat = a.toNat % 4 := Nat.and_two_pow_sub_one_eq_mod a.toNat 2
  have hlt : a.toNat % 4 < 2 ^ 12 := by omega
  rw [← BitVec.toNat_inj, hmask, BitVec.and_or_distrib_left, BitVec.toNat_or, and_highMask_toNat, hlow, Nat.mul_comm,
    Nat.two_pow_add_eq_or_of_lt hlt]

/-- The mask of a register. -/
@[simp] theorem and_mask_full_iff (a p : Word) : a &&& 0xFFFFFFFF#32 = p ↔ a.toNat = p.toNat := by
  rw [BitVec.toNat_inj, show (0xFFFFFFFF#32 : Word) = BitVec.allOnes 32 from rfl, BitVec.and_allOnes]

/-- `r` is the row of the table that wins at an address (30_encoding.md R104). -/
def Wins (r : TableRow) (addr : Word) : Prop :=
  r ∈ tableRows ∧ r.selects addr = true ∧
    ∀ q ∈ tableRows, q.selects addr = true → q ≠ r → q.priority < r.priority

/-! The winning row where the address is routed. -/

/-- An address in no window of REFCFG. -/
theorem wins_unmapped {a : Word} (h : route refCfg a = none) : Wins ⟨"UNMAPPED", 0, 0, 0⟩ a := by
  have hout := unmapped_of_route h
  simp [Cfg.unmapped, refCfg, Engine.contains] at hout
  refine ⟨by decide, by simp [TableRow.selects], ?_⟩
  simp [tableRows, TableRow.selects]
  omega

/-- The window that REFCFG has for each kind of engine (10_state.md R24). -/
theorem refCfg_window : ∀ en ∈ refCfg.engines,
    (en.kind = .intrShell → en.base = 0x2000 ∧ en.size = 0x2000) ∧
    (en.kind = .timer → en.base = 0x9000 ∧ en.size = 0x1000) ∧
    (en.kind = .regBlock → en.base = 0x101000 ∧ en.size = 0x1000) ∧
    (en.kind = .clkGen → en.base = 0x680000 ∧ en.size = 0x1000) := by decide

/-- The row of a register wins at its address: no other row of priority 3 has its pattern. -/
theorem wins_register (n : String) (p : Word) (hmem : ⟨n, p, 0xFFFFFFFF, 3⟩ ∈ tableRows) {a : Word}
    (ha : a.toNat = p.toNat) : Wins ⟨n, p, 0xFFFFFFFF, 3⟩ a := by
  have htop : ∀ w ∈ tableRows, w.priority = 3 →
      w.selects w.pattern = true ∧
        ∀ q ∈ tableRows, q.selects w.pattern = true → q ≠ w → q.priority < w.priority := by decide +kernel
  cases BitVec.eq_of_toNat_eq ha
  exact ⟨hmem, htop _ hmem rfl⟩

/-- The row that an address is routed to wins there. -/
theorem wins_of_row {a : Word} {r : Routed} (hr : route refCfg a = some r) {rd : Instr} {wr : Word → Instr}
    (h : Row refCfg r.id r.engine.kind r.off rd wr) : ∃ w, rd.rowName = some w.mnemonic ∧ Wins w a := by
  obtain ⟨he, hin, hoff⟩ := route_sound hr
  rw [Engine.contains_iff] at hin
  obtain ⟨shell, tmr, blk, clk⟩ := refCfg_window _ (List.mem_of_getElem? he)
  generalize r.engine.kind = k at h shell tmr blk clk
  generalize r.off = off at h hoff
  have haddr : ∀ {b}, r.engine.base = b → a.toNat = b + off := by omega
  cases h
  case clkCore => exact ⟨_, rfl, wins_register "CLK_CORE" 0x00680500 (by decide) (haddr (clk rfl).1)⟩
  case clkMem => exact ⟨_, rfl, wins_register "CLK_MEM" 0x00680504 (by decide) (haddr (clk rfl).1)⟩
  case clkVid => exact ⟨_, rfl, wins_register "CLK_VID" 0x00680508 (by decide) (haddr (clk rfl).1)⟩
  case tmrIntr => exact ⟨_, rfl, wins_register "TMR_INTR" 0x00009100 (by decide) (haddr (tmr rfl).1)⟩
  case tmrIntrEn => exact ⟨_, rfl, wins_register "TMR_INTR_EN" 0x00009140 (by decide) (haddr (tmr rfl).1)⟩
  case tmrMul => exact ⟨_, rfl, wins_register "TMR_MUL" 0x00009200 (by decide) (haddr (tmr rfl).1)⟩
  case tmrDiv => exact ⟨_, rfl, wins_register "TMR_DIV" 0x00009210 (by decide) (haddr (tmr rfl).1)⟩
  case tmrTimeLo => exact ⟨_, rfl, wins_register "TMR_TIME_LO" 0x00009400 (by decide) (haddr (tmr rfl).1)⟩
  case tmrTimeHi => exact ⟨_, rfl, wins_register "TMR_TIME_HI" 0x00009410 (by decide) (haddr (tmr rfl).1)⟩
  case tmrAlarm => exact ⟨_, rfl, wins_register "TMR_ALARM" 0x00009420 (by decide) (haddr (tmr rfl).1)⟩
  case shellIntr => exact ⟨_, rfl, wins_register "SHELL_INTR" 0x00002100 (by decide) (haddr (shell rfl).1)⟩
  case shellIntrEn => exact ⟨_, rfl, wins_register "SHELL_INTR_EN" 0x00002140 (by decide) (haddr (shell rfl).1)⟩
  case clkWord hal hother =>
    obtain ⟨hbase, hsize⟩ := clk rfl
    simp [Cfg.clkOffs, refCfg] at hother
    refine ⟨⟨"CLK_WORD", 0x00680000, 0xFFFFF003, 2⟩, rfl, by decide, ?_⟩
    simp [tableRows, TableRow.selects]
    omega
  case clkMisaligned hmis =>
    obtain ⟨hbase, hsize⟩ := clk rfl
    refine ⟨⟨"CLK_MISALIGNED", 0x00680000, 0xFFFFF000, 1⟩, rfl, by decide, ?_⟩
    simp [tableRows, TableRow.selects]
    omega
  case tmrOther hother =>
    obtain ⟨hbase, hsize⟩ := tmr rfl
    simp [Cfg.tmrOffs, refCfg] at hother
    refine ⟨⟨"TMR_OTHER", 0x00009000, 0xFFFFF000, 1⟩, rfl, by decide, ?_⟩
    simp [tableRows, TableRow.selects]
    omega
  case blkWord hal =>
    obtain ⟨hbase, hsize⟩ := blk rfl
    refine ⟨⟨"BLK_WORD", 0x00101000, 0xFFFFF003, 2⟩, rfl, by decide, ?_⟩
    simp [tableRows, TableRow.selects]
    omega
  case blkMisaligned hmis =>
    obtain ⟨hbase, hsize⟩ := blk rfl
    refine ⟨⟨"BLK_MISALIGNED", 0x00101000, 0xFFFFF000, 1⟩, rfl, by decide, ?_⟩
    simp [tableRows, TableRow.selects]
    omega
  case shellOther hother =>
    obtain ⟨hbase, hsize⟩ := shell rfl
    simp [Cfg.shellOffs, refCfg] at hother
    refine ⟨⟨"SHELL_OTHER", 0x00002000, 0xFFFFE000, 1⟩, rfl, by decide, ?_⟩
    simp [tableRows, TableRow.selects]
    omega

/-- Settles O5: an unmapped access selects the row without a mask, a routed one the row of its engine and offset. -/
theorem decodeFollowsTheOpcodeTable : Obligations.DecodeFollowsTheOpcodeTable := by
  unfold Obligations.DecodeFollowsTheOpcodeTable
  intro p i hp h
  rcases decode_mmio_cases hp h with ⟨hr, hi⟩ | ⟨r, hr, hi⟩
  · obtain ⟨hmem, hsel, hbest⟩ := wins_unmapped hr
    rcases hi with rfl | rfl <;> exact ⟨_, hmem, rfl, hsel, hbest⟩
  · have hrow := row_of_routed refCfg r
    obtain ⟨n, hrd, hwr⟩ := hrow.rowName
    obtain ⟨w, hw, hmem, hsel, hbest⟩ := wins_of_row hr hrow
    refine ⟨w, hmem, ?_, hsel, hbest⟩
    rcases hi with rfl | rfl
    · exact hw
    · rw [hwr, ← hrd, hw]

end Sys2Proof
end

section
/-! PROOFS of 42_timer.md: the deadline (R175), `Sync` (R176), the accuracy of the count (R203, 70_reset_and_hazards.md
R281) and the writes that split an interval (R187 to R190). -/

namespace Sys2Proof.Machine

/-! `AlarmDue` and `Deadline`. -/

theorem State.alarmDue_iff {s : State} {t : Nat} : s.alarmDue t = true ↔
    s.tmr.enabled = true ∧ crosses s.tmr.ticks (s.delta t) s.tmr.alarm = true := by
  simp [State.alarmDue]

/-- `Delta` while Enabled (42_timer.md R173). -/
theorem State.delta_of_enabled {s : State} (he : s.tmr.enabled = true) (t : Nat) :
    s.delta t = (t - s.tmr.baseline) * s.rateNum / (s.cfg.tu * s.rateDen) := by
  simp [State.delta, he]

/-- Once due, the alarm stays due: `Delta` does not decrease. -/
theorem State.alarmDue_mono {s : State} {t u : Nat} (htu : t ≤ u) (h : s.alarmDue t = true) : s.alarmDue u = true := by
  rw [State.alarmDue_iff, crosses_iff] at h ⊢
  obtain ⟨he, hdist⟩ := h
  exact ⟨he, hdist.trans (s.delta_mono htu)⟩

/-- The scaled distance to the alarm, the numerator of `Deadline` (42_timer.md R175). -/
def State.alarmWork (s : State) : Nat := alarmDist s.tmr.ticks s.tmr.alarm * s.cfg.tu * s.rateDen

theorem State.alarmWork_pos {s : State} (hc : s.cfg.wf = true) : 0 < s.alarmWork :=
  Nat.mul_pos (Nat.mul_pos (alarmDist_pos _ _) (Cfg.tu_pos hc)) s.rateDen_pos

/-- The alarm is due once the elapsed time times the rate reaches the scaled distance. -/
theorem State.alarmDue_iff_work {s : State} (hc : s.cfg.wf = true) {t : Nat} :
    s.alarmDue t = true ↔ s.tmr.enabled = true ∧ s.alarmWork ≤ (t - s.tmr.baseline) * s.rateNum := by
  rw [State.alarmDue_iff, crosses_iff]
  refine and_congr_right fun he => ?_
  rw [State.delta_of_enabled he, Nat.le_div_iff_mul_le (Nat.mul_pos (Cfg.tu_pos hc) s.rateDen_pos), State.alarmWork,
    Nat.mul_assoc]

/-- The formula of `Deadline` with its ceiling (42_timer.md R175). -/
theorem State.deadline_eq_some_iff {s : State} {d : Nat} : s.deadline = some d ↔
    s.tmr.enabled = true ∧ s.rateNum ≠ 0 ∧ s.tmr.baseline + ceilDiv s.alarmWork s.rateNum = d := by
  unfold State.deadline State.alarmWork
  by_cases h : s.tmr.enabled = false ∨ s.rateNum = 0
  · rw [if_pos h]; rcases h with h | h <;> simp [h]
  · rw [if_neg h]; simp only [not_or, Bool.not_eq_false] at h; simp [h]

/-- The alarm is due exactly from the deadline on. -/
theorem State.alarmDue_iff_deadline_le {s : State} (hc : s.cfg.wf = true) {d : Nat} (hd : s.deadline = some d)
    (t : Nat) : s.alarmDue t = true ↔ d ≤ t := by
  obtain ⟨he, hrate, rfl⟩ := State.deadline_eq_some_iff.mp hd
  have hceil {q : Nat} := ceilDiv_le (a := s.alarmWork) (q := q) (Nat.pos_of_ne_zero hrate)
  have hpos : ¬ ceilDiv s.alarmWork s.rateNum ≤ 0 := by
    rw [hceil]; have := State.alarmWork_pos hc; omega
  rw [State.alarmDue_iff_work hc, ← hceil]
  simp only [he, true_and]
  omega

/-- Without a deadline the alarm is never due. -/
theorem State.not_alarmDue_of_no_deadline {s : State} (hc : s.cfg.wf = true) (hd : s.deadline = none) (t : Nat) :
    s.alarmDue t = false := by
  rw [← Bool.not_eq_true, State.alarmDue_iff_work hc]
  rintro ⟨he, hwork⟩
  have hpos := State.alarmWork_pos hc
  have hrate : s.rateNum ≠ 0 := fun h0 => by rw [h0] at hwork; omega
  have := State.deadline_eq_some_iff.mpr ⟨he, hrate, rfl⟩
  rw [hd] at this; cases this

/-- A deadline is not before the baseline. -/
theorem State.baseline_le_deadline {s : State} {d : Nat} (hd : s.deadline = some d) : s.tmr.baseline ≤ d := by
  obtain ⟨-, -, rfl⟩ := State.deadline_eq_some_iff.mp hd
  exact Nat.le_add_right _ _

/-- The deadline is the one instant from which on the alarm is due. -/
theorem State.deadline_eq_some_iff_least {s : State} (hc : s.cfg.wf = true) {d : Nat} :
    s.deadline = some d ↔ s.tmr.baseline ≤ d ∧ s.alarmDue d = true ∧ ∀ t, s.alarmDue t = true → d ≤ t := by
  constructor
  · intro hd
    have hdue := State.alarmDue_iff_deadline_le hc hd
    exact ⟨State.baseline_le_deadline hd, (hdue d).mpr le_rfl, fun t => (hdue t).mp⟩
  · rintro ⟨-, hdue, hleast⟩
    cases hd : s.deadline with
    | none => rw [State.not_alarmDue_of_no_deadline hc hd d] at hdue; cases hdue
    | some d' =>
      have hdue' := State.alarmDue_iff_deadline_le hc hd
      rw [Nat.le_antisymm ((hdue' d).mp hdue) (hleast d' ((hdue' d').mpr le_rfl))]

/-- The formula of `Deadline` without `ceilDiv`: its quotient is the least one. -/
theorem State.deadline_eq_some_iff_formula {s : State} {d : Nat} : s.deadline = some d ↔
    s.tmr.enabled = true ∧ s.rateNum ≠ 0 ∧
      ∃ q, d = s.tmr.baseline + q ∧ ∀ x, q ≤ x ↔ s.alarmWork ≤ x * s.rateNum := by
  rw [State.deadline_eq_some_iff]
  refine and_congr_right fun _ => and_congr_right fun hrate => ?_
  have hceil {x : Nat} := ceilDiv_le (a := s.alarmWork) (q := x) (Nat.pos_of_ne_zero hrate)
  constructor
  · rintro rfl
    exact ⟨_, rfl, fun x => hceil⟩
  · rintro ⟨q, rfl, hq⟩
    rw [Nat.le_antisymm (hceil.mpr ((hq q).mp le_rfl)) ((hq _).mpr (hceil.mp le_rfl))]

/-- Settles O33: the alarm is due exactly from the deadline on, and never where there is none. -/
theorem deadlineIsTheLeastDueInstant : Obligations.DeadlineIsTheLeastDueInstant := by
  unfold Obligations.DeadlineIsTheLeastDueInstant
  refine fun s hc => ⟨fun t => State.alarmDue_iff, fun t u => State.alarmDue_mono,
    fun d => State.deadline_eq_some_iff_least hc, fun d => State.deadline_eq_some_iff_formula,
    State.not_alarmDue_of_no_deadline hc, fun hnever => ?_⟩
  cases hd : s.deadline with
  | none => rfl
  | some d =>
    have hdue := (State.alarmDue_iff_deadline_le hc hd d).mpr le_rfl
    rw [hnever d] at hdue; cases hdue

/-! `Sync`. -/

theorem State.sync_of_disabled {s : State} (h : s.tmr.enabled = false) (t : Nat) : s.sync t = s.setBaseline t := by
  simp [State.sync, h]

/-- Every field of the timer after `Sync` while Enabled (42_timer.md R176). -/
theorem State.sync_tmr_of_enabled {s : State} (h : s.tmr.enabled = true) (t : Nat) : (s.sync t).tmr = { s.tmr with
    ticks := advance s.tmr.ticks (s.delta t)
    pending := if s.alarmDue t then s.tmr.pending ||| alarmMask s.cfg else s.tmr.pending
    baseline := t } := by
  rcases s.sync_cases t with ⟨hd, -, hs⟩ | ⟨hd, -, hs⟩ | ⟨-, he, -⟩
  · simp [hs, hd]
  · simp [hs, hd]
  · rw [h] at he; cases he

/-- Where the alarm is not due `Sync` leaves the line and the trace. -/
theorem State.sync_lineKept_of_not_due {s : State} {t : Nat} (h : s.alarmDue t = false) : LineKept s (s.sync t) := by
  rcases s.sync_cases t with ⟨hd, -, -⟩ | ⟨-, -, hs⟩ | ⟨-, -, hs⟩
  · rw [h] at hd; cases hd
  · simp [LineKept, hs]
  · simp [LineKept, hs]

/-- Settles O34: while Enabled the alarm is due exactly where the advance crosses. -/
theorem syncIsTheTickCountAlgorithm : Obligations.SyncIsTheTickCountAlgorithm := by
  unfold Obligations.SyncIsTheTickCountAlgorithm
  intro s now
  refine ⟨fun he => State.sync_of_disabled he now, fun he => ?_⟩
  have hdue : crosses s.tmr.ticks (s.delta now) s.tmr.alarm = s.alarmDue now := by simp [State.alarmDue, he]
  rw [hdue, ← alarmMask_eq]
  exact ⟨State.sync_tmr_of_enabled he now, State.sync_lineRecomputed_of_due, State.sync_lineKept_of_not_due,
    by simp [SameStorage], by simp [SameFrame], by simp, by simp⟩

/-! Runs of `Sync`. -/

/-- The floors of two parts of an interval lose at most one against the floor of the whole. -/
theorem add_div_bounds (a b n : Nat) : a / n + b / n ≤ (a + b) / n ∧ (a + b) / n ≤ a / n + b / n + 1 := by
  rcases n.eq_zero_or_pos with rfl | hn
  · simp
  · rw [Nat.add_div hn]
    split <;> omega

/-- The ideal count over an interval that is cut at `t`. -/
theorem State.idealTicks_split (s : State) {t0 t last : Nat} (h0 : t0 ≤ t) (h1 : t ≤ last) :
    s.idealTicks t0 t + s.idealTicks t last ≤ s.idealTicks t0 last ∧
      s.idealTicks t0 last ≤ s.idealTicks t0 t + s.idealTicks t last + 1 := by
  have hcut : (last - t0) * s.rateNum = (t - t0) * s.rateNum + (last - t) * s.rateNum := by
    rw [← Nat.add_mul]; congr 1; omega
  unfold State.idealTicks
  rw [hcut]
  exact add_div_bounds _ _ _

/-- `Sync` leaves the rate. -/
@[simp] theorem State.sync_idealTicks (s : State) (t t0 t1 : Nat) :
    (s.sync t).idealTicks t0 t1 = s.idealTicks t0 t1 := by
  simp [State.idealTicks, State.sync_rateNum, State.sync_rateDen]

/-- The invocations of `Sync` at the instants `ts` from the baseline on add at most the ideal count, and lose less than
one tick at each of them but the last. -/
theorem State.ticksAdded_bounds {s : State} (he : s.tmr.enabled = true) {ts : List Nat} {last : Nat}
    (hord : (s.tmr.baseline :: ts).Pairwise (· ≤ ·)) (hlast : ts.getLast? = some last) :
    s.idealTicks s.tmr.baseline last ≤ s.ticksAdded ts + (ts.length - 1) ∧
      s.ticksAdded ts ≤ s.idealTicks s.tmr.baseline last := by
  induction ts generalizing s with
  | nil => cases hlast
  | cons t ts ih =>
    have hdelta : s.delta t = s.idealTicks s.tmr.baseline t := State.delta_of_enabled he t
    obtain ⟨hbase, hrest⟩ := List.pairwise_cons.mp hord
    cases ts with
    | nil =>
      cases hlast
      simp [State.ticksAdded, hdelta]
    | cons u us =>
      have hmem : last ∈ u :: us := List.mem_of_getLast? hlast
      obtain ⟨htail, -⟩ := List.pairwise_cons.mp hrest
      obtain ⟨hlo, hhi⟩ := ih (s := s.sync t) (by simpa using he) (by simpa using hrest) hlast
      obtain ⟨hsplit, hsplit'⟩ := s.idealTicks_split (hbase t (by simp)) (htail last hmem)
      simp only [State.sync_baseline, State.sync_idealTicks, List.length_cons] at hlo hhi
      simp only [State.ticksAdded, hdelta, List.length_cons] at hlo hhi ⊢
      omega

/-- The count after the invocations of `Sync` at the instants `ts`. -/
theorem State.syncAll_ticks (s : State) (ts : List Nat) :
    (s.syncAll ts).tmr.ticks.toNat = (s.tmr.ticks.toNat + s.ticksAdded ts) % 2 ^ 56 := by
  induction ts generalizing s with
  | nil => exact (Nat.mod_eq_of_lt s.tmr.ticks.isLt).symm
  | cons t ts ih =>
    rw [State.syncAll, ih, State.sync_ticks, advance_toNat, State.ticksAdded, Nat.mod_add_mod, Nat.add_assoc]

/-- Settles O36: by induction on the instants, the interval being cut at each of them. -/
theorem countStaysWithinKTicksOfIdeal : Obligations.CountStaysWithinKTicksOfIdeal := by
  unfold Obligations.CountStaysWithinKTicksOfIdeal
  intro s ts last he hord hlast
  obtain ⟨hlo, hhi⟩ := State.ticksAdded_bounds he hord hlast
  exact ⟨hlo, hhi, s.syncAll_ticks ts⟩

/-- An interval shorter than a tick has no whole tick (42_timer.md R173). -/
theorem State.delta_of_short {s : State} {t : Nat} (h : (t - s.tmr.baseline) * s.rateNum < s.cfg.tu * s.rateDen) :
    s.delta t = 0 := by
  unfold State.delta
  split
  · exact Nat.div_eq_of_lt h
  · rfl

/-- `Sync` where no tick has elapsed leaves the count. -/
theorem State.sync_ticks_of_delta_zero {s : State} {t : Nat} (h : s.delta t = 0) :
    (s.sync t).tmr.ticks = s.tmr.ticks := by
  rw [State.sync_ticks, h]; simp [advance]

/-- Settles O37: by induction on the instants; each finds no whole tick and moves the baseline. -/
theorem pollingFasterThanATickStarvesTheCounter : Obligations.PollingFasterThanATickStarvesTheCounter := by
  unfold Obligations.PollingFasterThanATickStarvesTheCounter
  intro s ts last hshort hlast
  induction ts generalizing s with
  | nil => cases hlast
  | cons t ts ih =>
    obtain ⟨hstep, hrest⟩ := List.isChain_cons_cons.mp hshort
    have hticks := State.sync_ticks_of_delta_zero (State.delta_of_short hstep)
    rw [State.syncAll]
    cases ts with
    | nil => cases hlast; exact ⟨hticks, s.sync_baseline t⟩
    | cons u us =>
      obtain ⟨hcount, hbase⟩ := ih (s.sync t)
        (by simpa [State.sync_rateNum, State.sync_rateDen] using hrest) hlast
      exact ⟨hcount.trans hticks, hbase⟩

/-! The writes that split an interval. -/

/-- Settles O45: `Sync` moves the baseline to the write, and the rate from there on has the new ratio. -/
theorem ratioWritesSplitTheIntervalAtTheWrite : Obligations.RatioWritesSplitTheIntervalAtTheWrite := by
  unfold Obligations.RatioWritesSplitTheIntervalAtTheWrite
  intro s d he
  refine ⟨⟨_, exec_wrTmrMul d s, ?mulTicks, fun later => ?mulDelta⟩,
    ⟨_, exec_wrTmrDiv d s, ?divTicks, fun later => ?divDelta⟩⟩
  case mulTicks | divTicks => simp [State.sync_ticks, advance_toNat]
  case mulDelta =>
    rw [State.delta_of_enabled (by simpa using he)]
    simp [State.rateNum, State.rateDen, State.divEff, State.coreFreq]
  case divDelta =>
    rw [State.delta_of_enabled (by simpa using he), ← orOne_toNat]
    simp [State.rateNum, State.rateDen, State.divEff, State.coreFreq]

/-- A second `Sync` at the same instant leaves the count: no time has elapsed since the first. -/
theorem State.sync_ticks_at_baseline {s : State} {t : Nat} (h : s.tmr.baseline = t) :
    (s.sync t).tmr.ticks = s.tmr.ticks := by
  subst h; exact State.sync_ticks_of_delta_zero s.delta_at_baseline

/-- Settles O47: the second `Sync` finds no time elapsed, so the two writes compose. -/
theorem lowZeroThenHighOneGivesTwoToThe27 : Obligations.LowZeroThenHighOneGivesTwoToThe27 := by
  unfold Obligations.LowZeroThenHighOneGivesTwoToThe27
  intro s
  let t := ((s.sync s.now).setTicks (withTimeLo (s.sync s.now).tmr.ticks 0)).ack
  have hticks : (t.sync t.now).tmr.ticks = t.tmr.ticks := State.sync_ticks_at_baseline (by simp [t])
  refine ⟨t, _, exec_wrTmrTimeLo 0 s, exec_wrTmrTimeHi 1 t, ?_⟩
  rw [State.ack_tmr, State.setTicks_tmr, hticks, withTimeHi_toNat]
  simp [t, withTimeLo_toNat]

end Sys2Proof.Machine
end

section
/-! PROOFS of 41_clockgen.md: the writes of a word (R152), the frequency each coefficient moves (R156, R157,
70_reset_and_hazards.md R282). -/

namespace Sys2Proof

/-- Distinct coefficients lie in distinct words: their offsets are multiples of 4 (00_scope.md R8 (e)). -/
theorem Cfg.clkOffs_distinct_words {c : Cfg} (hc : c.wf = true) :
    c.clkCoreOff / 4 ≠ c.clkMemOff / 4 ∧ c.clkCoreOff / 4 ≠ c.clkVidOff / 4 ∧ c.clkMemOff / 4 ≠ c.clkVidOff / 4 := by
  obtain ⟨hnodup, -, -⟩ := Cfg.offsets_nodup hc
  have haligned : ∀ o ∈ c.clkOffs, o % 4 = 0 := fun o => Cfg.clkOffs_aligned hc
  simp only [Cfg.clkOffs, List.nodup_cons, List.mem_cons, List.not_mem_nil, or_false, not_or, forall_eq_or_imp,
    forall_eq] at hnodup haligned
  omega

end Sys2Proof

namespace Sys2Proof.Machine

theorem exec_wrClkWord (off : Nat) (d : Word) (s : State) :
    exec (.wrClkWord off d) s = .next (s.writeClk (off / 4) d).ack := rfl

theorem exec_wrClkCore (d : Word) (s : State) :
    exec (.wrClkCore d) s = .next (s.writeClk (s.cfg.clkCoreOff / 4) d).ack := rfl

theorem exec_wrClkMem (d : Word) (s : State) :
    exec (.wrClkMem d) s = .next (s.writeClk (s.cfg.clkMemOff / 4) d).ack := rfl

theorem exec_wrClkVid (d : Word) (s : State) :
    exec (.wrClkVid d) s = .next (s.writeClk (s.cfg.clkVidOff / 4) d).ack := rfl

/-- Settles O27: the four writes store at the index of their offset, and a canonical store reads back. -/
theorem clkWritesStoreOneWord : Obligations.ClkWritesStoreOneWord := by
  unfold Obligations.ClkWritesStoreOneWord
  intro s off d i hwf hi
  have hexec : exec i s = .next (s.writeClk (off / 4) d).ack := by
    rcases hi with rfl | ⟨rfl, rfl⟩ | ⟨rfl, rfl⟩ | ⟨rfl, rfl⟩
    exacts [exec_wrClkWord off d s, exec_wrClkCore d s, exec_wrClkMem d s, exec_wrClkVid d s]
  exact ⟨_, hexec, Memory.read_write_same hwf, fun j hj => Memory.read_write_other d hj, rfl⟩

/-- Settles O29: each frequency reads one word, and the three words are distinct. -/
theorem coefficientWritesChangeOneFrequency : Obligations.CoefficientWritesChangeOneFrequency := by
  unfold Obligations.CoefficientWritesChangeOneFrequency
  intro s d hc hwf
  obtain ⟨hcm, hcv, hmv⟩ := Cfg.clkOffs_distinct_words hc
  have hsame : ∀ i, (s.clk.word.write i d).read i = d := fun i => Memory.read_write_same hwf
  have hother : ∀ {i j}, j ≠ i → (s.clk.word.write i d).read j = s.clk.word.read j := Memory.read_write_other d
  refine ⟨⟨_, exec_wrClkCore d s, ?_⟩, ⟨_, exec_wrClkMem d s, ?_⟩, ⟨_, exec_wrClkVid d s, ?_⟩⟩
  · simp [State.coreFreq, State.memFreq, State.vidFreq, hsame, hother hcm.symm, hother hcv.symm]
  · simp [State.coreFreq, State.memFreq, State.vidFreq, hsame, hother hcm, hother hmv.symm]
  · simp [State.coreFreq, State.memFreq, State.vidFreq, hsame, hother hcv, hother hmv]

/-- Settles O30: the write leaves the timer, its baseline with it, and changes the frequency that `Delta` reads. -/
theorem coreClockWriteAppliesToTheWholeInterval : Obligations.CoreClockWriteAppliesToTheWholeInterval := by
  unfold Obligations.CoreClockWriteAppliesToTheWholeInterval
  refine fun s d hwf he => ⟨_, exec_wrClkCore d s, rfl, fun later => ?_⟩
  have hfreq : (s.writeClk (s.cfg.clkCoreOff / 4) d).ack.coreFreq = pllFreq s.cfg d := by
    simp [State.coreFreq, Memory.read_write_same hwf]
  rw [State.delta_of_enabled (by simpa using he), State.rateNum, hfreq]
  rfl

end Sys2Proof.Machine
end

section
/-! PROOFS of 20_memory.md R72: a hardware event on bits that a clearing write does not name is never lost. -/

namespace Sys2Proof.Machine

/-- Two writes of one element leave the second. -/
theorem Store.write_write {α : Type} [DecidableEq α] {d : α} {m : Store α} (h : Store.wf d m = true) (i : Nat)
    (x y : α) : Store.write d (Store.write d m i x) i y = Store.write d m i y := by
  have hx := Store.write_wf i x h
  refine Store.eq_of_read (Store.write_wf i y hx) (Store.write_wf i y h) fun j => ?_
  by_cases hj : j = i
  · subst hj; rw [Store.read_write_same hx, Store.read_write_same h]
  · rw [Store.read_write_other y hj, Store.read_write_other x hj, Store.read_write_other y hj]

/-- Bits that the clearing word does not name survive it. -/
theorem clearBits_of_disjoint {bits d : Word} (h : bits &&& d = 0) : clearBits bits d = bits := by
  apply BitVec.eq_of_getLsbD_eq
  intro b _
  have hb : (bits.getLsbD b && d.getLsbD b) = false := by rw [← BitVec.getLsbD_and, h]; simp
  rw [clearBits_getLsbD]
  revert hb
  cases bits.getLsbD b <;> simp

/-- Clearing, and setting bits that it does not name, commute (20_memory.md R72). -/
theorem clearBits_or_of_disjoint {bits d : Word} (h : bits &&& d = 0) (pending : Word) :
    clearBits (pending ||| bits) d = clearBits pending d ||| bits := by
  have hkeep : bits &&& ~~~d = bits := clearBits_of_disjoint h
  rw [clearBits, BitVec.and_or_distrib_right, hkeep, clearBits]

/-- Bits just set are set. -/
theorem or_and_absorb (pending bits : Word) : (pending ||| bits) &&& bits = bits := by
  apply BitVec.eq_of_getLsbD_eq
  intro b _
  rw [BitVec.getLsbD_and, BitVec.getLsbD_or]
  cases bits.getLsbD b <;> simp

/-- The state after an operation that replaces the pair of shell `e` (43_shell_engines.md R229, R232). -/
def State.updateShell (s : State) (e : Nat) (x : Shell) : State := ((s.setShell e x).recompute s.now).ack

theorem exec_wrShellIntr_eq_update (e : Nat) (d : Word) (s : State) : exec (.wrShellIntr e d) s =
    .next (s.updateShell e { s.shellAt e with pending := clearBits (s.shellAt e).pending d }) := rfl

theorem exec_hwEvent_eq_update (e : Nat) (bits : Word) (s : State) : exec (.hwEvent e bits) s =
    .next (s.updateShell e { s.shellAt e with pending := (s.shellAt e).pending ||| bits }) := rfl

@[simp] theorem State.updateShell_shell (s : State) (e : Nat) (x : Shell) :
    (s.updateShell e x).shell = Store.write { pending := 0, mask := 0 } s.shell e x := by
  simp [State.updateShell]

theorem State.updateShell_shellAt {s : State} (h : Store.wf { pending := 0, mask := 0 } s.shell = true) (e : Nat)
    (x : Shell) : (s.updateShell e x).shellAt e = x := by
  obtain ⟨hpair, -⟩ := State.shellUpdate_recompute h e x
  exact hpair

/-- Settles O59: each order leaves the pair with the bits of `d` cleared and `bits` set, and the operands are
disjoint. -/
theorem clearingNeverLosesUnnamedEvents : Obligations.ClearingNeverLosesUnnamedEvents := by
  unfold Obligations.ClearingNeverLosesUnnamedEvents
  intro s e d bits hwf hdisj
  have hread : ∀ x, (s.updateShell e x).shellAt e = x := State.updateShell_shellAt hwf e
  refine ⟨_, _, _, _, exec_wrShellIntr_eq_update e d s, exec_hwEvent_eq_update e bits _,
    exec_hwEvent_eq_update e bits s, exec_wrShellIntr_eq_update e d _, ?shell, ?pending⟩
  case shell =>
    simp only [State.updateShell_shell, hread, Store.write_write hwf, clearBits_or_of_disjoint hdisj]
  case pending =>
    have hwf' : Store.wf { pending := 0, mask := 0 } (s.updateShell e
        { s.shellAt e with pending := clearBits (s.shellAt e).pending d }).shell = true := by
      rw [State.updateShell_shell]; exact Store.write_wf e _ hwf
    rw [State.updateShell_shellAt hwf', hread]
    exact or_and_absorb _ _

end Sys2Proof.Machine
end

section
/-! PROOFS of 40_dispatcher.md R130: `Recompute`. -/

namespace Sys2Proof.Machine

/-- `Recompute` twice is `Recompute` once: the line is the aggregate already. -/
theorem State.recompute_recompute (s : State) (t u : Nat) : (s.recompute t).recompute u = s.recompute t :=
  if_pos (by simp)

/-- `Recompute` keeps the events alternating up to the line. -/
theorem State.recompute_alternates {s : State} (h : lineAfter false s.trace = some s.disp.irqLine) (t : Nat) :
    lineAfter false (s.recompute t).trace = some (s.recompute t).disp.irqLine := by
  rw [State.recompute_trace, State.recompute_irqLine]
  split
  · next hsame => rw [h, hsame]
  · next hchange => exact lineAfter_append _ _ _ _ t h hchange

/-- Settles O21: the line after `Recompute` is the aggregate, and an event is added exactly when it changed. -/
theorem recomputeNotifiesOncePerTransition : Obligations.RecomputeNotifiesOncePerTransition := by
  unfold Obligations.RecomputeNotifiesOncePerTransition
  exact fun s now later =>
    ⟨s.recompute_eq now, s.recompute_recompute now later, fun h => State.recompute_alternates h now⟩

end Sys2Proof.Machine
end

section
/-! PROOFS over every operation: what one can do, said once, and what follows for the line and the trace
(40_dispatcher.md R132), the timer's state (60_exceptions.md R251) and its count (42_timer.md R202). -/

namespace Sys2Proof.Machine

/-! What an operation can do. -/

/-- Everything that the operation `i` can make of the state `s`. `effect_of_exec` ties it to `exec`. The windows of the
operands come along, for an operation that is well formed. -/
inductive Effect (s : State) (i : Instr) : State → Prop
  /-- A read without `Sync`. -/
  | replied (v : Word) : Effect s i (s.reply v)
  /-- An access or an environment operation without effect. -/
  | ignored : Effect s i s.ack
  /-- A write of a word of the clock generator. -/
  | wroteClk (off : Nat) (d : Word) (hoff : s.cfg.wf = true → i.wf s.cfg = true →
      s.cfg.holdsFirst .clkGen (fun en => decide (off < en.size)) = true) :
      Effect s i (s.writeClk (off / 4) d).ack
  /-- A write of a word of a register block. -/
  | wroteBlk (e off : Nat) (d : Word) (hoff : i.wf s.cfg = true →
      s.cfg.holdsAt e .regBlock (fun en => decide (off < en.size)) = true) :
      Effect s i (s.writeBlk e (off / 4) d).ack
  /-- A clear of pending bits, a new mask or a hardware event at an interrupt shell. -/
  | updatedShell (e : Nat) (x : Shell) (he : i.wf s.cfg = true → s.cfg.holdsAt e .intrShell (fun _ => true) = true) :
      Effect s i (s.updateShell e x)
  /-- Write-1-to-clear of the timer's pending field. -/
  | clearedPending (d : Word) : Effect s i ((s.setPending (clearBits s.tmr.pending d)).recompute s.now).ack
  /-- A new mask of the timer. -/
  | wroteMask (d : Word) : Effect s i ((s.setMask d).recompute s.now).ack
  /-- A read of the count. -/
  | readCount (v : Word) : Effect s i ((s.sync s.now).reply v)
  /-- A write of the multiplier. -/
  | wroteMul (d : Word) : Effect s i ((s.sync s.now).setMul d).ack
  /-- A write of the divisor. -/
  | wroteDiv (d : Word) : Effect s i ((s.sync s.now).setDiv d).ack
  /-- A write of the alarm. -/
  | wroteAlarm (d : Word) : Effect s i ((s.sync s.now).setAlarm d).ack
  /-- A write of a half of the count. -/
  | wroteCount (x : Ticks) (hi : ∃ d, i = .wrTmrTimeLo d ∨ i = .wrTmrTimeHi d) :
      Effect s i ((s.sync s.now).setTicks x).ack
  /-- The monitor's step. -/
  | checkedAlarm : Effect s i (s.sync s.now).ack
  /-- `TMR_ENABLE` from Disabled. -/
  | enabled (hi : i = .tmrEnable) (h : s.tmr.enabled = false) : Effect s i (s.enableAt s.now).ack
  /-- `TMR_DISABLE` from Enabled. -/
  | disabled (hi : i = .tmrDisable) : Effect s i ((s.resetTimer s.now).recompute s.now).ack
  /-- `RESET`. -/
  | wasReset (hi : i = .reset) : Effect s i ((s.resetStorage.resetTimer s.now).recompute s.now).ack

/-- What an operation answers is one of its effects. -/
theorem effect_of_exec {i : Instr} {s t : State} (h : exec i s = .next t) : Effect s i t := by
  cases i with
  | rdUnmapped | rdClkWord | rdClkCore | rdClkMem | rdClkVid | rdClkMisaligned | rdTmrIntr | rdTmrIntrEn | rdTmrMul
  | rdTmrDiv | rdTmrAlarm | rdTmrOther | rdBlkWord | rdBlkMisaligned | rdShellIntr | rdShellIntrEn | rdShellOther =>
    cases h; exact .replied _
  | wrUnmapped | wrClkMisaligned | wrTmrOther | wrBlkMisaligned | wrShellOther => cases h; exact .ignored
  | rdTmrTimeLo | rdTmrTimeHi => cases h; exact .readCount _
  | wrClkWord off d =>
    cases h
    refine .wroteClk off d fun _ hwf => ?_
    simp only [Instr.wf, Cfg.clkPlainOff, Bool.and_eq_true, decide_eq_true_eq] at hwf
    obtain ⟨⟨hin, -⟩, -⟩ := hwf
    exact hin
  | wrClkCore | wrClkMem | wrClkVid =>
    cases h
    exact .wroteClk _ _ fun hc _ => Cfg.holdsFirst_of_register hc (.inl rfl) (by simp [Cfg.offsOf, Cfg.clkOffs])
  | wrBlkWord => cases h; exact .wroteBlk _ _ _ fun hwf => (Cfg.holdsAt_and hwf).1
  | wrShellIntr | wrShellIntrEn | hwEvent => cases h; exact .updatedShell _ _ id
  | wrTmrIntr => cases h; exact .clearedPending _
  | wrTmrIntrEn => cases h; exact .wroteMask _
  | wrTmrMul => cases h; exact .wroteMul _
  | wrTmrDiv => cases h; exact .wroteDiv _
  | wrTmrAlarm => cases h; exact .wroteAlarm _
  | wrTmrTimeLo d => cases h; exact .wroteCount _ ⟨d, .inl rfl⟩
  | wrTmrTimeHi d => cases h; exact .wroteCount _ ⟨d, .inr rfl⟩
  | reset => cases h; exact .wasReset rfl
  | tmrEnable =>
    cases he : s.tmr.enabled with
    | true => cases (exec_tmrEnable_of_enabled he).symm.trans h; exact .ignored
    | false => cases (exec_tmrEnable_of_disabled he).symm.trans h; exact .enabled rfl he
  | tmrDisable =>
    cases he : s.tmr.enabled with
    | true => cases (exec_tmrDisable_of_enabled he).symm.trans h; exact .disabled rfl
    | false => cases (exec_tmrDisable_of_disabled he).symm.trans h; exact .ignored
  | alarmCheck =>
    cases hd : s.alarmDue s.now with
    | true => cases (exec_alarmCheck_of_due hd).symm.trans h; exact .checkedAlarm
    | false => cases (exec_alarmCheck_of_not_due hd).symm.trans h

/-! The line and the trace. -/

/-- The line is the aggregate, and at most one event was added, exactly when the line changed (40_dispatcher.md
R132). -/
def NotifiedOnce (s t : State) (now : Nat) : Prop :=
  t.disp.irqLine = t.aggregate ∧
  ((t.disp.irqLine = s.disp.irqLine ∧ t.trace = s.trace) ∨
   (t.disp.irqLine ≠ s.disp.irqLine ∧ t.trace = s.trace ++ [.notify t.disp.irqLine now]))

theorem NotifiedOnce.of_lineRecomputed {s t : State} {now : Nat} (h : LineRecomputed s now t) :
    NotifiedOnce s t now := by
  obtain ⟨hline, htrace⟩ := h
  refine ⟨hline, ?_⟩
  rw [hline, htrace]
  by_cases hsame : t.aggregate = s.disp.irqLine
  · exact .inl ⟨hsame, if_pos hsame⟩
  · exact .inr ⟨hsame, if_neg hsame⟩

/-- What leaves the line and the trace has to leave the aggregate. -/
theorem NotifiedOnce.of_lineKept {s t : State} {now : Nat} (hs : s.disp.irqLine = s.aggregate) (h : LineKept s t)
    (hagg : t.aggregate = s.aggregate) : NotifiedOnce s t now := by
  obtain ⟨hline, htrace⟩ := h
  exact ⟨by rw [hline, hs, hagg], .inl ⟨by rw [hline], htrace⟩⟩

/-- A later change of fields that neither the line, the trace nor the aggregate reads. -/
theorem NotifiedOnce.congr {s t u : State} {now : Nat} (h : NotifiedOnce s t now) (hkept : LineKept t u)
    (hagg : u.aggregate = t.aggregate) : NotifiedOnce s u now := by
  obtain ⟨hdisp, htrace⟩ := hkept
  unfold NotifiedOnce
  rw [hdisp, htrace, hagg]
  exact h

/-- `Sync` where the alarm is not due leaves what the aggregate reads. -/
theorem State.sync_aggregate_of_not_due {s : State} {t : Nat} (h : s.alarmDue t = false) :
    (s.sync t).aggregate = s.aggregate :=
  State.aggregate_congr (by simp) (by simp [State.sync_pending, h]) (by simp) (by simp)

theorem State.sync_notifiedOnce {s : State} (hs : s.disp.irqLine = s.aggregate) (t : Nat) :
    NotifiedOnce s (s.sync t) t := by
  cases hd : s.alarmDue t with
  | true => exact .of_lineRecomputed (State.sync_lineRecomputed_of_due hd)
  | false => exact .of_lineKept hs (State.sync_lineKept_of_not_due hd) (State.sync_aggregate_of_not_due hd)

/-- Every effect is announced at most once. -/
theorem Effect.notifiedOnce {i : Instr} {s t : State} (h : Effect s i t) (hs : s.disp.irqLine = s.aggregate) :
    NotifiedOnce s t s.now := by
  have hsync := State.sync_notifiedOnce hs s.now
  cases h with
  | replied | ignored | wroteClk | wroteBlk | enabled => exact .of_lineKept hs ⟨rfl, rfl⟩ rfl
  | readCount | wroteMul | wroteDiv | wroteAlarm | wroteCount | checkedAlarm => exact hsync.congr ⟨rfl, rfl⟩ rfl
  | updatedShell | clearedPending | wroteMask | disabled | wasReset =>
    exact .of_lineRecomputed (State.recompute_lineRecomputed rfl rfl s.now)

/-- Settles O22, by the operation's effect. -/
theorem everyOperationNotifiesAtMostOnce : Obligations.EveryOperationNotifiesAtMostOnce := by
  unfold Obligations.EveryOperationNotifiesAtMostOnce
  exact fun i s t hs h => (effect_of_exec h).notifiedOnce hs

/-! The timer. -/

/-- Only `TMR_ENABLE`, `TMR_DISABLE` and `RESET` enable or disable the timer. -/
theorem Effect.enabled_eq {i : Instr} {s t : State} (h : Effect s i t) (hi : i.rowName ≠ none) :
    t.tmr.enabled = s.tmr.enabled := by
  cases h with
  | enabled h | disabled h | wasReset h => subst h; simp [Instr.rowName] at hi
  | _ => simp [State.updateShell]

/-- Settles O23: what an MMIO packet decodes to is a row of the MMIO port. -/
theorem mmioNeverEnablesOrDisablesTheTimer : Obligations.MmioNeverEnablesOrDisablesTheTimer := by
  unfold Obligations.MmioNeverEnablesOrDisablesTheTimer
  exact fun s t p i hp hdec h => (effect_of_exec h).enabled_eq (rowName_of_decode_mmio hp hdec)

/-- An effect leaves the count or is a `Sync`, but for the writes of the count and the resets of the timer. -/
theorem Effect.ticks {i : Instr} {s t : State} (h : Effect s i t) (hlo : ∀ d, i ≠ .wrTmrTimeLo d)
    (hhi : ∀ d, i ≠ .wrTmrTimeHi d) (hdis : i ≠ .tmrDisable) (hreset : i ≠ .reset) :
    t.tmr.ticks = s.tmr.ticks ∨ t.tmr.ticks = (s.sync s.now).tmr.ticks := by
  cases h with
  | wroteCount x hi => obtain ⟨d, rfl | rfl⟩ := hi; exacts [absurd rfl (hlo d), absurd rfl (hhi d)]
  | disabled hi => exact absurd hi hdis
  | wasReset hi => exact absurd hi hreset
  | readCount | wroteMul | wroteDiv | wroteAlarm | checkedAlarm => exact .inr rfl
  | _ => exact .inl (by simp [State.updateShell])

/-- Settles O35: the count after `Sync` is advanced by `Delta`. -/
theorem countMovesOnlyByElapsedTicks : Obligations.CountMovesOnlyByElapsedTicks := by
  unfold Obligations.CountMovesOnlyByElapsedTicks
  intro i s t h hlo hhi hdis hreset
  have hmoves : t.tmr.ticks = s.tmr.ticks ∨ t.tmr.ticks.toNat = (s.tmr.ticks.toNat + s.delta s.now) % 2 ^ 56 := by
    rcases (effect_of_exec h).ticks hlo hhi hdis hreset with hticks | hticks
    · exact .inl hticks
    · exact .inr (by rw [hticks, State.sync_ticks, advance_toNat])
  refine ⟨hmoves, fun hnowrap => ?_⟩
  rcases hmoves with hticks | hticks
  · rw [hticks]
  · rw [hticks, Nat.mod_eq_of_lt hnowrap]; exact Nat.le_add_right _ _

end Sys2Proof.Machine
end

section
/-! PROOFS of 00_scope.md and of the monitor's schedule (R8, R10, R11; 42_timer.md R201): what a step performs, when,
and what it refuses. -/

namespace Sys2Proof.Machine

/-! The step by what stands at the head of the port. -/

/-- A request in order and not past the monitor's latest instant is performed. -/
theorem step_of_request {s : State} {r : Request} {rest : List Request} (hc : s.cfg.wf = true)
    (hp : s.port = r :: rest) (hnow : s.now ≤ r.instant)
    (htime : ∀ d, s.deadline = some d → r.instant ≤ s.latestCheck d) : step s = s.perform r rest := by
  have hback : ¬ r.instant < s.now := Nat.not_lt.mpr hnow
  cases hd : s.deadline with
  | none => simp [step, hc, hp, hd, hback]
  | some d =>
    have hover : s.overdue d r.instant = false := decide_eq_false (Nat.not_lt.mpr (htime d hd))
    simp [step, hc, hp, hd, hback, hover]

/-- The monitor steps where nothing comes by its latest instant. -/
theorem step_of_monitor {s : State} {d : Nat} (hc : s.cfg.wf = true) (hd : s.deadline = some d)
    (hport : s.port = [] ∨ ∃ r rest, s.port = r :: rest ∧ s.now ≤ r.instant ∧ s.latestCheck d < r.instant) :
    step s = s.monitorStep d := by
  rcases hport with hp | ⟨r, rest, hp, hnow, hlate⟩
  · simp [step, hc, hp, hd]
  · have hback : ¬ r.instant < s.now := Nat.not_lt.mpr hnow
    have hover : s.overdue d r.instant = true := decide_eq_true hlate
    simp [step, hc, hp, hd, hback, hover]

/-- An ill-formed configuration is refused. -/
theorem step_of_illFormed {s : State} (hc : s.cfg.wf = false) : step s = .refused .illFormedCfg := if_pos hc

/-- An instant before the previous operation's is refused. -/
theorem step_of_backward {s : State} {r : Request} {rest : List Request} (hc : s.cfg.wf = true)
    (hp : s.port = r :: rest) (hback : r.instant < s.now) : step s = .refused .clockBackward := by
  cases hd : s.deadline with
  | none => simp [step, hc, hp, hd, hback]
  | some d => simp [step, hc, hp, hd, hback]

/-- Settles O8, by what is refused. -/
theorem stepRefusesWhatIsNoRun : Obligations.StepRefusesWhatIsNoRun := by
  unfold Obligations.StepRefusesWhatIsNoRun
  exact ⟨fun s => step_of_illFormed, fun s r rest => step_of_backward⟩

/-- Settles O13: with neither a request nor a deadline the step is the waiting one. -/
theorem idleBlockKeepsItsState : Obligations.IdleBlockKeepsItsState := by
  unfold Obligations.IdleBlockKeepsItsState
  intro s hc hp hd
  simp [step, hc, hp, hd]

/-! Performing a request. -/

theorem State.perform_of_decode {s : State} {r : Request} {i : Instr} (h : decode s.cfg r.packet = .ok i)
    (rest : List Request) : s.perform r rest = s.track (exec i (s.begin r rest)) := by
  simp [State.perform, h]

/-- Settles O7: the request is performed, and tracking keeps the deadline's instant beside what `exec` answers. -/
theorem stepPerformsTheDecodedOperation : Obligations.StepPerformsTheDecodedOperation := by
  unfold Obligations.StepPerformsTheDecodedOperation
  intro s r rest i hc hp hnow htime hdec
  have hstep : step s = s.track (exec i (s.begin r rest)) :=
    (step_of_request hc hp hnow htime).trans (State.perform_of_decode hdec rest)
  exact ⟨fun t h => by rw [hstep, State.begin, h]; rfl, fun why h => by rw [hstep, State.begin, h]; rfl⟩

/-- Only `ALARM_CHECK` can be refused: every row of the MMIO port has a next state (60_exceptions.md R240). -/
theorem exec_next_of_rowName {i : Instr} (hi : i.rowName ≠ none) (s : State) : ∃ t, exec i s = .next t := by
  cases i
  case reset | tmrEnable | tmrDisable | hwEvent | alarmCheck => simp [Instr.rowName] at hi
  all_goals exact ⟨_, rfl⟩

/-- Settles O10: the packet decodes to a row of the MMIO port, which goes on and leaves the step's own fields. -/
theorem everyMmioRequestCompletes : Obligations.EveryMmioRequestCompletes := by
  unfold Obligations.EveryMmioRequestCompletes
  intro s r rest hc hp hmmio hnow htime
  obtain ⟨i, hdec, -, hrow⟩ := everyMmioTransactionDecodes s.cfg r.packet hc hmmio
  obtain ⟨t, ht⟩ := exec_next_of_rowName hrow (s.begin r rest)
  obtain ⟨-, htnow, htport, -, -⟩ := exec_sameFrame _ _ _ ht
  refine ⟨t.tracked s, ?_, by simpa using htnow, by simpa using htport⟩
  rw [step_of_request hc hp hnow htime, State.perform_of_decode hdec, ht]
  rfl

/-! The monitor's window. -/

/-- The monitor's instant is not before the deadline or now. -/
theorem State.le_monitorInstant (s : State) (d : Nat) : d ≤ s.monitorInstant d ∧ s.now ≤ s.monitorInstant d := by
  unfold State.monitorInstant
  omega

/-- The latest instant of the monitor's step is not before the deadline. -/
theorem State.deadline_le_latestCheck (s : State) (d : Nat) : d ≤ s.latestCheck d := by
  unfold State.latestCheck
  split <;> omega

/-- The monitor's instant is not after its latest one, or now where that is over. -/
theorem State.monitorInstant_le (s : State) (d : Nat) : s.monitorInstant d ≤ max s.now (s.latestCheck d) := by
  have hd := s.deadline_le_latestCheck d
  have hlag : Config.monitorLag s.draws % (s.latestCheck d - max d s.now + 1) < s.latestCheck d - max d s.now + 1 :=
    Nat.mod_lt _ (Nat.succ_pos _)
  unfold State.monitorInstant
  omega

/-- The monitor's own step (42_timer.md R200, R201): the alarm is due at its instant, so it goes on. -/
theorem State.monitorStep_eq {s : State} {d : Nat} (hc : s.cfg.wf = true) (hd : s.deadline = some d) :
    s.monitorStep d =
      .next ((((s.monitorAt (s.monitorInstant d)).sync (s.monitorInstant d)).ack).tracked s) := by
  have hdue : (s.monitorAt (s.monitorInstant d)).alarmDue (s.monitorAt (s.monitorInstant d)).now = true :=
    (State.alarmDue_iff_deadline_le hc hd _).mpr (s.le_monitorInstant d).1
  rw [State.monitorStep, exec_alarmCheck_of_due hdue]
  rfl

/-- Settles O11: the monitor's instant lies in its window, where the alarm is due, and `Sync` raises it. -/
theorem monitorFiresWithinItsWindow : Obligations.MonitorFiresWithinItsWindow := by
  unfold Obligations.MonitorFiresWithinItsWindow
  intro s d hc hd
  refine ⟨fun h => if_pos h, fun h => if_neg (Nat.not_le.mpr h), fun hport => ?_⟩
  obtain ⟨hfrom, hnow⟩ := s.le_monitorInstant d
  have hdue : (s.monitorAt (s.monitorInstant d)).alarmDue (s.monitorInstant d) = true :=
    (State.alarmDue_iff_deadline_le hc hd _).mpr hfrom
  refine ⟨_, (step_of_monitor hc hd hport).trans (State.monitorStep_eq hc hd), ?_⟩
  simp only [State.tracked_now, State.tracked_tmr, State.tracked_port, State.ack_now, State.ack_tmr, State.ack_port,
    State.sync_now, State.sync_port, State.sync_baseline, State.monitorAt_now, State.monitorAt_port]
  refine ⟨hfrom, hnow, s.monitorInstant_le d, ?alarmBit, trivial, trivial⟩
  rw [State.sync_pending, if_pos hdue, BitVec.getLsbD_or, State.monitorAt_cfg, alarmMask_getLsbD hc, Bool.or_true]

/-! What every step keeps. -/

/-- A step that goes on does not turn the clock back, keeps the configuration, and ends by the monitor's latest instant
where it began by then. -/
theorem step_frame {s t : State} (h : step s = .next t) : s.now ≤ t.now ∧ t.cfg = s.cfg ∧
    ∀ d, s.deadline = some d → s.now ≤ s.latestCheck d → t.now ≤ s.latestCheck d := by
  obtain ⟨hc, rfl | ⟨d, u, hd, hu, rfl, -⟩ | ⟨r, rest, i, u, hp, hnow, -, hu, rfl, htime⟩⟩ := step_cases s t h
  · exact ⟨le_rfl, rfl, fun _ _ hle => hle⟩
  · obtain ⟨hcfg, hunow, -⟩ := exec_sameFrame _ _ _ hu
    rw [State.monitorAt_now] at hunow
    refine ⟨?_, hcfg, fun d' hd' hle => ?_⟩
    · rw [State.tracked_now, hunow]; exact (s.le_monitorInstant d).2
    · cases hd.symm.trans hd'
      rw [State.tracked_now, hunow]
      exact (s.monitorInstant_le d).trans (max_le hle le_rfl)
  · obtain ⟨hcfg, hunow, -⟩ := exec_sameFrame _ _ _ hu
    rw [State.begin_now] at hunow
    refine ⟨?_, hcfg, fun d hd _ => ?_⟩
    · rw [State.tracked_now, hunow]; exact hnow
    · rw [State.tracked_now, hunow]; exact htime d hd

/-- Settles O9, by what the step performs. -/
theorem instantsNeverDecreaseAndCfgIsConstant : Obligations.InstantsNeverDecreaseAndCfgIsConstant := by
  unfold Obligations.InstantsNeverDecreaseAndCfgIsConstant
  intro s t h
  obtain ⟨hnow, hcfg, -⟩ := step_frame h
  exact ⟨hnow, hcfg⟩

/-- The latest instant depends on the configuration and on the instant from which the deadline has stood. -/
theorem State.latestCheck_congr {s t : State} (hcfg : t.cfg = s.cfg) (hsince : t.deadlineSince = s.deadlineSince)
    (d : Nat) : t.latestCheck d = s.latestCheck d := by
  unfold State.latestCheck
  rw [hcfg, hsince]

/-- A step that leaves the deadline leaves the instant from which it has stood. -/
theorem step_deadlineSince {s t : State} (h : step s = .next t) (hsame : t.deadline = s.deadline) :
    t.deadlineSince = s.deadlineSince := by
  obtain ⟨-, rfl | ⟨d, u, -, -, rfl, -⟩ | ⟨r, rest, i, u, -, -, -, -, rfl, -⟩⟩ := step_cases s t h
  · rfl
  · exact if_pos hsame
  · exact if_pos hsame

/-- Settles O12: the latest instant is kept with `deadlineSince`, and a step does not pass it. -/
theorem pollingDoesNotDelayTheMonitor : Obligations.PollingDoesNotDelayTheMonitor := by
  unfold Obligations.PollingDoesNotDelayTheMonitor
  intro s t d h hs ht
  obtain ⟨-, hcfg, htime⟩ := step_frame h
  exact ⟨State.latestCheck_congr hcfg (step_deadlineSince h (ht.trans hs.symm)) d, htime d hs⟩

end Sys2Proof.Machine
end

section
/-! PROOFS of 10_state.md R51: the derived values at power-on and after `RESET`. -/

namespace Sys2Proof.Machine

/-- A coefficient word of zero is a stopped clock (41_clockgen.md R155). -/
theorem pllFreq_zero (c : Cfg) : pllFreq c 0 = 0 := by
  simp [pllFreq, pllN]

/-- A state whose clock storage, shells and timer are as after power-on. -/
theorem derivedValues_of_reset {t : State} {now : Nat} (hclk : t.clk.word = []) (hshell : t.shell = [])
    (hblk : t.blk = []) (htmr : t.tmr = Tmr.resetAt now) :
    t.coreFreq = 0 ∧ t.memFreq = 0 ∧ t.vidFreq = 0 ∧ t.rateNum = 0 ∧ t.aggregate = false ∧
    (∃ u, exec .rdTmrTimeLo t = .next u ∧ u.rdata = some 0) ∧
    ∃ u, exec .rdTmrTimeHi t = .next u ∧ u.rdata = some 0 := by
  obtain ⟨hword, hpair, -⟩ := State.registers_zero_of_empty hclk hshell hblk
  have hcore : t.coreFreq = 0 := by rw [State.coreFreq, hword, pllFreq_zero]
  have hcount : (t.sync t.now).tmr.ticks = 0 := by
    rw [State.sync_of_disabled (by rw [htmr]; rfl), State.setBaseline_tmr, htmr]; rfl
  refine ⟨hcore, by rw [State.memFreq, hword, pllFreq_zero], by rw [State.vidFreq, hword, pllFreq_zero],
    by rw [State.rateNum, hcore, Nat.zero_mul],
    State.aggregate_of_nothing_pending (by rw [htmr]; rfl) fun e => by rw [hpair],
    ⟨_, exec_rdTmrTimeLo t, ?_⟩, ⟨_, exec_rdTmrTimeHi t, ?_⟩⟩
  · rw [State.reply_rdata, hcount]; rfl
  · rw [State.reply_rdata, hcount]; rfl

/-- Settles O15: `RESET` leaves the power-on state but for fields that no derived value reads. -/
theorem derivedValuesAtReset : Obligations.DerivedValuesAtReset := by
  unfold Obligations.DerivedValuesAtReset
  rintro t (⟨c, now, rfl⟩ | ⟨s, hs⟩)
  · exact derivedValues_of_reset rfl rfl rfl rfl
  · cases (exec_reset_eq_powerOn s).symm.trans hs
    exact derivedValues_of_reset rfl rfl rfl rfl

end Sys2Proof.Machine
end

section
/-! PROOFS of the invariant (10_state.md R43, 40_dispatcher.md R130, 42_timer.md R201; log 5): it holds at power-on and
every step keeps it. -/

namespace Sys2Proof.Machine

/-! The parts of the invariant that operations keep. -/

/-- The clauses of `State.Inv` on the line and the trace. -/
def State.LineOk (s : State) : Prop :=
  s.disp.irqLine = s.aggregate ∧ lineAfter false s.trace = some s.disp.irqLine ∧
    (s.trace.map Event.instant).Pairwise (· ≤ ·) ∧ ∀ e ∈ s.trace, e.instant ≤ s.now

/-- The clauses of `State.Inv` on the timer. -/
def State.TimerOk (s : State) : Prop :=
  s.tmr.pending &&& ~~~ alarmMask s.cfg = 0 ∧ (s.tmr.enabled = false → s.tmr.pending = 0) ∧ s.tmr.baseline ≤ s.now

/-- The clauses of `State.Inv` on the stores. -/
def State.StoresOk (s : State) : Prop := s.storesWf = true ∧ s.storesInWindows = true

/-- The invariant is the three parts, the check of the configuration and the monitor's bound. -/
theorem State.inv_iff {s : State} :
    s.Inv ↔ s.cfg.wf = true ∧ s.LineOk ∧ s.TimerOk ∧ s.StoresOk ∧ s.monitorInTime = true := by
  constructor
  · rintro ⟨hcfg, hline, honly, hdisabled, hbase, hstores, hwindows, halt, ⟨hord, hpast⟩, htime⟩
    exact ⟨hcfg, ⟨hline, halt, hord, hpast⟩, ⟨honly, hdisabled, hbase⟩, ⟨hstores, hwindows⟩, htime⟩
  · rintro ⟨hcfg, ⟨hline, halt, hord, hpast⟩, ⟨honly, hdisabled, hbase⟩, ⟨hstores, hwindows⟩, htime⟩
    exact ⟨hcfg, hline, honly, hdisabled, hbase, hstores, hwindows, halt, ⟨hord, hpast⟩, htime⟩

/-! The line and the trace. -/

/-- One more event, at the present instant, keeps the order. -/
theorem instants_ordered_append {es : List Event} {b : Bool} {now : Nat}
    (hord : (es.map Event.instant).Pairwise (· ≤ ·)) (hpast : ∀ e ∈ es, e.instant ≤ now) :
    ((es ++ [Event.notify b now]).map Event.instant).Pairwise (· ≤ ·) ∧
      ∀ e ∈ es ++ [Event.notify b now], e.instant ≤ now := by
  constructor
  · simpa [List.pairwise_append, Event.instant, hord] using hpast
  · intro e he
    rcases List.mem_append.mp he with he | he
    · exact hpast e he
    · cases List.mem_singleton.mp he; exact le_rfl

/-- An operation that is announced at most once keeps the events alternating and in order. -/
theorem NotifiedOnce.lineOk {s t : State} (h : NotifiedOnce s t s.now) (hnow : t.now = s.now) (hs : s.LineOk) :
    t.LineOk := by
  obtain ⟨-, halt, hord, hpast⟩ := hs
  obtain ⟨hline, ⟨hsame, htrace⟩ | ⟨hchange, htrace⟩⟩ := h
  · rw [State.LineOk, htrace, hsame, hnow]
    exact ⟨hsame ▸ hline, halt, hord, hpast⟩
  · rw [State.LineOk, htrace, hnow]
    exact ⟨hline, lineAfter_append _ _ _ _ _ halt hchange, instants_ordered_append hord hpast⟩

/-! The timer. -/

/-- Clearing bits sets none. -/
theorem clearBits_and_zero {pending m : Word} (h : pending &&& m = 0) (d : Word) : clearBits pending d &&& m = 0 := by
  rw [clearBits, BitVec.and_assoc, BitVec.and_comm (~~~d), ← BitVec.and_assoc, h]
  exact BitVec.zero_and

theorem clearBits_zero (d : Word) : clearBits 0 d = 0 := BitVec.zero_and

/-- Raising the alarm sets no bit but the alarm bit. -/
theorem or_alarm_and_not {pending m : Word} (h : pending &&& ~~~m = 0) : (pending ||| m) &&& ~~~m = 0 := by
  rw [BitVec.and_or_distrib_right, h]
  simp

theorem State.sync_timerOk {s : State} (hs : s.TimerOk) : (s.sync s.now).TimerOk := by
  obtain ⟨honly, hdisabled, -⟩ := hs
  rw [State.TimerOk, State.sync_pending, State.sync_cfg, State.sync_enabled, State.sync_baseline, State.sync_now]
  cases hd : s.alarmDue s.now with
  | false => exact ⟨honly, hdisabled, le_rfl⟩
  | true =>
    obtain ⟨he, -⟩ := State.alarmDue_iff.mp hd
    exact ⟨or_alarm_and_not honly, fun hno => absurd he (by simp [hno]), le_rfl⟩

/-- Every effect keeps the clauses on the timer: only `Sync` sets a pending bit, and only while Enabled. -/
theorem Effect.timerOk {i : Instr} {s t : State} (h : Effect s i t) (hs : s.TimerOk) : t.TimerOk := by
  have hsync := State.sync_timerOk hs
  obtain ⟨honly, hdisabled, hbase⟩ := hs
  cases h with
  | replied | ignored | wroteClk | wroteBlk => exact ⟨honly, hdisabled, hbase⟩
  | readCount | wroteMul | wroteDiv | wroteAlarm | wroteCount | checkedAlarm => exact hsync
  | updatedShell | wroteMask => simpa [State.TimerOk, State.updateShell] using ⟨honly, hdisabled, hbase⟩
  | clearedPending d =>
    have hcleared := clearBits_and_zero honly d
    have hzero : s.tmr.enabled = false → clearBits s.tmr.pending d = 0 := fun he => by
      rw [hdisabled he, clearBits_zero]
    simpa [State.TimerOk] using ⟨hcleared, hzero, hbase⟩
  | enabled => exact ⟨honly, fun he => (by cases he), le_rfl⟩
  | disabled | wasReset => simp [State.TimerOk, Tmr.resetAt]

/-! The stores. -/

theorem State.storesInWindows_iff {s : State} : s.storesInWindows = true ↔
    Store.within (fun i => s.cfg.holdsFirst .clkGen fun en => decide (i < en.size / 4)) s.clk.word = true ∧
    Store.within (fun e => s.cfg.holdsAt e .intrShell fun _ => true) s.shell = true ∧
    ∀ p ∈ s.blk, s.cfg.holdsAt p.1 .regBlock
      (fun en => Store.within (fun i => decide (i < en.size / 4)) p.2) = true := by
  simp [State.storesInWindows, and_assoc]

/-- The checks of the stores read the stores and the configuration alone. -/
theorem State.StoresOk.congr {s t : State} (hs : s.StoresOk) (hcfg : t.cfg = s.cfg) (hclk : t.clk = s.clk)
    (hshell : t.shell = s.shell) (hblk : t.blk = s.blk) : t.StoresOk := by
  unfold State.StoresOk State.storesWf State.storesInWindows
  rw [hcfg, hclk, hshell, hblk]
  exact hs

/-- An offset inside a window lies in one of its words: sizes are multiples of 4 (00_scope.md R8 (c)). -/
theorem word_in_window {c : Cfg} (hc : c.wf = true) {e : Nat} {en : Engine} (he : c.engineAt e = some en) {off : Nat}
    (hoff : off < en.size) : off / 4 < en.size / 4 := by
  obtain ⟨-, -, -, hsize⟩ := Cfg.window_of_wf hc he
  omega

/-- A write in the clock generator's window keeps the stores in their windows. -/
theorem State.writeClk_storesOk {s : State} (hc : s.cfg.wf = true) (hs : s.StoresOk) {off : Nat} (d : Word)
    (hoff : s.cfg.holdsFirst .clkGen (fun en => decide (off < en.size)) = true) :
    (s.writeClk (off / 4) d).StoresOk := by
  obtain ⟨hwf, hin⟩ := hs
  obtain ⟨hclk, hshell, hblk⟩ := State.storesInWindows_iff.mp hin
  obtain ⟨e, en, hfirst, he, -, -⟩ := Cfg.firstOf_unique hc (.inl rfl : EngineKind.clkGen = .clkGen ∨ _)
  obtain ⟨en', hfirst', hlt⟩ := Cfg.holdsFirst_iff.mp hoff
  cases hfirst.symm.trans hfirst'
  have hword : s.cfg.holdsFirst .clkGen (fun en => decide (off / 4 < en.size / 4)) = true :=
    Cfg.holdsFirst_iff.mpr ⟨en, hfirst, decide_eq_true (word_in_window hc he (of_decide_eq_true hlt))⟩
  exact ⟨State.writeClk_storesWf _ d hwf,
    State.storesInWindows_iff.mpr ⟨Store.write_within d hclk hword, hshell, hblk⟩⟩

/-- A new pair of an interrupt shell keeps the stores in their windows. -/
theorem State.setShell_storesOk {s : State} (hs : s.StoresOk) {e : Nat} (x : Shell)
    (he : s.cfg.holdsAt e .intrShell (fun _ => true) = true) : (s.setShell e x).StoresOk := by
  obtain ⟨hwf, hin⟩ := hs
  obtain ⟨hclk, hshell, hblk⟩ := State.storesInWindows_iff.mp hin
  exact ⟨State.setShell_storesWf e x hwf,
    State.storesInWindows_iff.mpr ⟨hclk, Store.write_within x hshell he, hblk⟩⟩

/-- The words of a register block lie in its window. -/
theorem State.blkAt_within {s : State} (hin : s.storesInWindows = true) {e : Nat} {en : Engine}
    (he : s.cfg.engineAt e = some en) : Store.within (fun i => decide (i < en.size / 4)) (s.blkAt e) = true := by
  obtain ⟨-, -, hblk⟩ := State.storesInWindows_iff.mp hin
  rcases Store.read_mem_or_default (d := ([] : Memory)) s.blk e with hempty | hmem
  · rw [State.blkAt, hempty]; rfl
  · obtain ⟨en', he', -, hwithin⟩ := Cfg.holdsAt_iff.mp (hblk _ hmem)
    cases he.symm.trans he'
    exact hwithin

/-- A write in a register block's window keeps the stores in their windows. -/
theorem State.writeBlk_storesOk {s : State} (hc : s.cfg.wf = true) (hs : s.StoresOk) {e off : Nat} (d : Word)
    (hoff : s.cfg.holdsAt e .regBlock (fun en => decide (off < en.size)) = true) :
    (s.writeBlk e (off / 4) d).StoresOk := by
  obtain ⟨hwf, hin⟩ := hs
  obtain ⟨hclk, hshell, hblk⟩ := State.storesInWindows_iff.mp hin
  obtain ⟨en, he, hkind, hlt⟩ := Cfg.holdsAt_iff.mp hoff
  have hword : decide (off / 4 < en.size / 4) = true := decide_eq_true (word_in_window hc he (of_decide_eq_true hlt))
  refine ⟨State.writeBlk_storesWf e _ d hwf, State.storesInWindows_iff.mpr ⟨hclk, hshell, fun p hp => ?_⟩⟩
  rcases Store.mem_write hp with hp | rfl
  · exact hblk p hp
  · exact Cfg.holdsAt_iff.mpr ⟨en, he, hkind, Store.write_within d (State.blkAt_within hin he) hword⟩

/-- No store is listed after `RESET`. -/
theorem State.storesOk_of_empty {s : State} (hclk : s.clk.word = []) (hshell : s.shell = []) (hblk : s.blk = []) :
    s.StoresOk := by
  unfold State.StoresOk State.storesWf State.storesInWindows
  rw [hclk, hshell, hblk]
  exact ⟨rfl, rfl⟩

theorem Effect.storesOk {i : Instr} {s t : State} (h : Effect s i t) (hc : s.cfg.wf = true) (hi : i.wf s.cfg = true)
    (hs : s.StoresOk) : t.StoresOk := by
  cases h with
  | wroteClk off d hoff => exact (State.writeClk_storesOk hc hs d (hoff hc hi)).congr rfl rfl rfl rfl
  | wroteBlk e off d hoff => exact (State.writeBlk_storesOk hc hs d (hoff hi)).congr rfl rfl rfl rfl
  | updatedShell e x he =>
    exact (State.setShell_storesOk hs x (he hi)).congr (by simp [State.updateShell]) (by simp [State.updateShell])
      (by simp) (by simp [State.updateShell])
  | wasReset => exact State.storesOk_of_empty (by simp) (by simp) (by simp)
  | _ => exact hs.congr (by simp) (by simp) (by simp) (by simp)

/-! The step around the operation. -/

/-- What operations keep of the invariant. -/
def State.Sound (s : State) : Prop := s.LineOk ∧ s.TimerOk ∧ s.StoresOk

/-- A well-formed operation keeps it. -/
theorem exec_sound {i : Instr} {s t : State} (h : exec i s = .next t) (hc : s.cfg.wf = true) (hi : i.wf s.cfg = true)
    (hs : s.Sound) : t.Sound := by
  obtain ⟨hline, htimer, hstores⟩ := hs
  obtain ⟨-, hnow, -⟩ := exec_sameFrame i s t h
  have heffect := effect_of_exec h
  obtain ⟨hlineAgg, -⟩ := id hline
  exact ⟨(heffect.notifiedOnce hlineAgg).lineOk hnow hline, heffect.timerOk htimer, heffect.storesOk hc hi hstores⟩

/-- It does not depend on the port, the draws and the deadline's instant, and stays as the clock goes on. -/
theorem State.Sound.later {s : State} (hs : s.Sound) {now : Nat} (hnow : s.now ≤ now) (port : List Request)
    (draws since : Nat) :
    ({ s with now := now, port := port, draws := draws, deadlineSince := since } : State).Sound := by
  obtain ⟨⟨hline, halt, hord, hpast⟩, ⟨honly, hdisabled, hbase⟩, hstores⟩ := hs
  exact ⟨⟨hline, halt, hord, fun e he => (hpast e he).trans hnow⟩, ⟨honly, hdisabled, hbase.trans hnow⟩,
    hstores.congr rfl rfl rfl rfl⟩

/-- A step that goes on keeps it: what `step` performs is a well-formed operation. -/
theorem step_sound {s t : State} (h : step s = .next t) (hs : s.Sound) : t.Sound := by
  obtain ⟨hc, rfl | ⟨d, u, -, hu, rfl, -⟩ | ⟨r, rest, i, u, -, hnow, hdec, hu, rfl, -⟩⟩ := step_cases s t h
  · exact hs
  · have hbegin : (s.monitorAt (s.monitorInstant d)).Sound := hs.later (s.le_monitorInstant d).2 _ _ _
    exact (exec_sound hu hc rfl hbegin).later le_rfl _ _ _
  · obtain ⟨hi, -⟩ := encodeReadsBackEveryDecoding s.cfg r.packet i hc hdec
    have hbegin : (s.begin r rest).Sound := hs.later hnow _ _ _
    exact (exec_sound hu hc hi hbegin).later le_rfl _ _ _

/-! The monitor's bound. -/

theorem State.monitorInTime_iff {s : State} :
    s.monitorInTime = true ↔ ∀ d, s.deadline = some d → s.now ≤ s.latestCheck d := by
  unfold State.monitorInTime
  cases s.deadline <;> simp

/-- The latest instant of the monitor's step is not before the deadline arose. -/
theorem State.deadlineSince_le_latestCheck (s : State) (d : Nat) : s.deadlineSince ≤ s.latestCheck d := by
  unfold State.latestCheck
  split <;> omega

/-- A step that changes the deadline makes it stand from its own instant. -/
theorem step_deadlineSince_of_changed {s t : State} (h : step s = .next t) (hchange : t.deadline ≠ s.deadline) :
    t.deadlineSince = t.now := by
  obtain ⟨-, rfl | ⟨d, u, -, -, rfl, -⟩ | ⟨r, rest, i, u, -, -, -, -, rfl, -⟩⟩ := step_cases s t h
  · exact absurd rfl hchange
  · exact if_neg hchange
  · exact if_neg hchange

/-- No step passes the monitor's latest instant: a deadline it leaves bounds it, a new one counts from it. -/
theorem step_monitorInTime {s t : State} (h : step s = .next t) (hs : s.monitorInTime = true) :
    t.monitorInTime = true := by
  obtain ⟨-, hcfg, htime⟩ := step_frame h
  rw [State.monitorInTime_iff] at hs ⊢
  intro d hd
  by_cases hsame : t.deadline = s.deadline
  · have hsd : s.deadline = some d := hsame ▸ hd
    rw [State.latestCheck_congr hcfg (step_deadlineSince h hsame)]
    exact htime d hsd (hs d hsd)
  · rw [← step_deadlineSince_of_changed h hsame]
    exact t.deadlineSince_le_latestCheck d

/-- Settles O24: every operation keeps the line, the timer and the stores, and every step the monitor's bound. -/
theorem everyStepKeepsTheInvariant : Obligations.EveryStepKeepsTheInvariant := by
  unfold Obligations.EveryStepKeepsTheInvariant
  intro s t hs h
  obtain ⟨hc, hline, htimer, hstores, htime⟩ := State.inv_iff.mp hs
  obtain ⟨-, hcfg, -⟩ := step_frame h
  obtain ⟨hline', htimer', hstores'⟩ := step_sound h ⟨hline, htimer, hstores⟩
  exact State.inv_iff.mpr ⟨hcfg ▸ hc, hline', htimer', hstores', step_monitorInTime h htime⟩

/-! Power-on. -/

/-- The invariant holds at power-on of every well-formed configuration: nothing is pending, stored or due. -/
theorem State.powerOn_inv {c : Cfg} (hc : c.wf = true) (now : Nat) : (State.powerOn c now).Inv := by
  have hagg : (State.powerOn c now).aggregate = false := State.aggregate_of_nothing_pending rfl fun _ => rfl
  exact State.inv_iff.mpr ⟨hc, ⟨hagg.symm, rfl, List.Pairwise.nil, fun _ he => nomatch he⟩,
    ⟨BitVec.zero_and, fun _ => rfl, le_rfl⟩, State.storesOk_of_empty rfl rfl rfl, rfl⟩

/-- Settles O16: REFCFG is well formed. -/
theorem invariantHoldsAtReset : Obligations.InvariantHoldsAtReset := by
  unfold Obligations.InvariantHoldsAtReset
  exact State.powerOn_inv (by decide) 0

end Sys2Proof.Machine
end
